-- ==== Sys2Proof/Word.lean ====
section
/-! DEFINITION. Word.lean: the widths the part works in, and a table built from a function.

Bit vectors stand for what the manual treats as bits: bytes of the window and of frames, addresses, flag bytes, counters
with a width. Counts and times are natural numbers. -/

namespace Sys2Proof

/-- One byte of the window or of a frame. -/
abbrev Byte := BitVec 8

/-- A 6-byte Ethernet station address, its first byte most significant (Terms: link address). -/
abbrev LinkAddr := BitVec 48

/-- The table whose place `i` holds `f i`. -/
def tabulate {α : Type} (n : Nat) (f : Fin n → α) : Vector α n :=
  ⟨⟨(List.finRange n).map f⟩, by simp⟩

@[simp] theorem getElem_tabulate {α : Type} (n : Nat) (f : Fin n → α) (i : Nat) (h : i < n) :
    (tabulate n f)[i] = f ⟨i, h⟩ := by
  simp [tabulate]

end Sys2Proof
end

