-- ==== Sys2Proof/Config.lean ====
section
/-! DEFINITION. Config.lean: what the part fixes (defaults, limits, identity), and the free values of the model.

The free values are the `opaque` constants: nothing in Lean can evaluate them, so no claim can rest on one value. -/

namespace Sys2Proof.Config

/-- Device code at window offset 00h (R155, R195). -/
def deviceCode : Byte := 0x5C#8
/-- Revision at window offset 01h (R155, R195). -/
def revision : Byte := 0x02#8

/-- The reply queue holds at most 16 items (R97). -/
def queueLimit : Nat := 16
/-- An answer enters the queue only while it holds fewer than 12 (R97, R99). -/
def answerLimit : Nat := 12
/-- A slot's address list holds at most 8 entries (R1, R5). -/
def addressListLimit : Nat := 8
/-- A slot's pattern list holds at most 4 patterns (R1, R6). -/
def patternListLimit : Nat := 4
/-- A change of AWAKE_n is taken when three samples in a row show the new level (R28). -/
def filterSamples : Nat := 3

/-- Wake pulse width of a VACANT slot, in ms (R2). -/
def vacantPulseWidth : Nat := 50
/-- Wake timeout of a VACANT slot, in ms (R2). -/
def vacantWakeTimeout : Nat := 5000
/-- Wake retries of a VACANT slot (R2). -/
def vacantWakeRetries : Nat := 2

/-- Probe count at power-on (R25). -/
def powerOnProbeCount : Nat := 3
/-- Probe interval at power-on, in ms (R25). -/
def powerOnProbeInterval : Nat := 1000
/-- Defence window at power-on, in s (R25). -/
def powerOnDefenceWindow : Nat := 10

/-- FREE VALUE (log 7): the order in which events that fall due in the same count are taken. Two expiries in one count
are taken "in either order" (R35, R47, R75, R209). The key of the `k`-th due event of count `t` is `expiryOrder t k`. -/
opaque expiryOrder : Nat → Nat → Nat

/-- FREE VALUE (log 11): the four check-sequence bytes that the frame port appends to a frame it sends whole. R208 says that
they are computed over every byte before them and names no polynomial. -/
opaque checkSequence : List Byte → Vector Byte 4

/-- FREE VALUE (log 17): the 4 bytes that stand for a V6 address in a V4 frame. Only an ANSWER_V4 item that outlives 256 freeings
of its entry meets an entry of family V6 (R210), and no rule says how its address fits. -/
opaque fitV4 : BitVec 128 → BitVec 32

/-- FREE VALUE (log 17): the 16 bytes that stand for a V4 address in a V6 frame, for an ANSWER_V6 item in the same case (R210). -/
opaque fitV6 : BitVec 32 → BitVec 128

end Sys2Proof.Config
end

