-- ==== Sys2Proof/Syntax.lean ====
section
/-! DEFINITION. Syntax.lean: the commands of the part, one constructor for each row of spec/opcode_table.json.

A command is one event that the part takes whole (spec/95_what_each_step_holds.md). The operands of the mailbox
commands are the bytes of the command area that R201 gives, unchecked: a slot number above 15 or a flag byte of 02h
can be written down here, and the command's own meaning refuses it with BAD_PARAMETER (R169). -/

namespace Sys2Proof

/-- The commands, in the order of spec/opcode_table.json. -/
inductive Instr where
  /-- POWER_ON: RESET_N is deasserted; the levels of AWAKE_15..AWAKE_0, of LINK, and whether CS_N is low (R29, R113, R157). -/
  | powerOn (awake : BitVec 16) (link csLow : Bool)
  /-- AWAKE_RISES: the filter of slot `n` takes a rise (R28, R30). -/
  | awakeRises (n : Fin 16)
  /-- AWAKE_FALLS: the filter of slot `n` takes a fall (R28, R30). -/
  | awakeFalls (n : Fin 16)
  /-- LINK_LOSS: the LINK line falls (R113, R114). -/
  | linkLoss
  /-- LINK_UP: the LINK line rises (R113, R116). -/
  | linkUp
  /-- FRAME_TAKEN: a frame whose last byte has arrived. `bytes` runs from the destination link address to the last byte of
  the check sequence, any segment tag included; `fcsGood` is the frame port's check-sequence outcome (R78, R79). -/
  | frameTaken (bytes : List Byte) (fcsGood : Bool)
  /-- PROBE_TIMER_EXPIRY of entry `e` (R59). -/
  | probeTimerExpiry (e : Fin 96)
  /-- DEFENCE_DEADLINE_REACHED of entry `e` (R68). -/
  | defenceDeadlineReached (e : Fin 96)
  /-- PULSE_TIMER_EXPIRY of slot `n` (R132). -/
  | pulseTimerExpiry (n : Fin 16)
  /-- WAKE_TIMEOUT_EXPIRY of slot `n` (R41). -/
  | wakeTimeoutExpiry (n : Fin 16)
  /-- TRANSMISSION_COMPLETE: the last byte of the frame in transmission leaves the frame port (R111). -/
  | transmissionComplete
  /-- ITEM_TAKE: the idle transmitter takes the head item (R103). -/
  | itemTake
  /-- PENDING_DUTY_TAKEN: a free place of the queue is given to the lowest-numbered waiting duty (R101). -/
  | pendingDutyTaken
  /-- COMMAND_AREA_WRITE: a data byte written at a window offset from 10h to 4Fh (R164). -/
  | commandAreaWrite (offset value : Byte)
  /-- WINDOW_WRITE_IGNORED: a data byte written at a read-only or unmapped window offset (R155). -/
  | windowWriteIgnored (offset value : Byte)
  /-- ACK: a control write of 02h (R161). -/
  | ack
  /-- ABORT: a control write of 04h (R162). -/
  | abort
  /-- INVALID_CONTROL_WRITE: a control write of any value but 01h, 02h, 04h (R163). -/
  | invalidControlWrite (value : Byte)
  /-- UNKNOWN_COMMAND: GO with a code that is not a command (R168). -/
  | unknownCommand (code : Byte)
  /-- SET_STATION (R170). -/
  | setStation (addr : LinkAddr)
  /-- SET_SEGMENT (R171). -/
  | setSegment (tag : BitVec 16)
  /-- SET_TIMING (R172). -/
  | setTiming (count : Byte) (interval : BitVec 16) (window : Byte)
  /-- SET_ATTENTION_MASK (R173). -/
  | setAttentionMask (slotMask deviceMask enable : Byte)
  /-- READ_DEVICE (R174). -/
  | readDevice (clear : Byte)
  /-- DEVICE_RESET (R175). -/
  | deviceReset
  /-- OPEN_SLOT (R176). -/
  | openSlot (slot : Byte) (client : LinkAddr) (mode : Byte)
  /-- SET_SLOT_POLICY (R177). -/
  | setSlotPolicy (slot loss rearm pulse : Byte) (timeout : BitVec 16) (retries : Byte)
  /-- ADD_ADDRESS: the 16 bytes of the address argument, first byte most significant (R178). -/
  | addAddress (slot family : Byte) (address : BitVec 128)
  /-- REMOVE_ADDRESS (R179). -/
  | removeAddress (entry : Byte)
  /-- ATTACH_PATTERN (R180). -/
  | attachPattern (slot pattern : Byte)
  /-- DETACH_PATTERN (R181). -/
  | detachPattern (slot pattern : Byte)
  /-- ARM (R182). -/
  | arm (slot : Byte)
  /-- DISARM (R183). -/
  | disarm (slot : Byte)
  /-- WAKE (R184). -/
  | wake (slot : Byte)
  /-- RELEASE (R185). -/
  | release (slot announce : Byte)
  /-- READ_SLOT (R188). -/
  | readSlot (slot clear : Byte)
  /-- READ_ENTRY (R189). -/
  | readEntry (entry : Byte)
  /-- LOOKUP: the 16 bytes of the address argument, first byte most significant (R190). -/
  | lookup (family : Byte) (address : BitVec 128)
  /-- READ_ATTENTION: a slot number, or FFh for the device set (R191). -/
  | readAttention (which : Byte)
  /-- WRITE_PATTERN: bit `i` of `mask` is the flag of position `i` (R192, R200). -/
  | writePattern (pattern offset length : Byte) (mask : BitVec 32) (value : Vector Byte 32)
  /-- CLEAR_PATTERN (R193). -/
  | clearPattern (pattern : Byte)
  /-- READ_PATTERN (R194). -/
  | readPattern (pattern : Byte)
  /-- GO_REFUSED: a control write of 01h in EXECUTING or COMPLETE (R159). -/
  | goRefused
  /-- RESET_N_ASSERTED (R146, R157). -/
  | resetNAsserted
  deriving DecidableEq, Repr

end Sys2Proof
end

