-- ==== Sys2Proof/Machine/State.lean ====
section
/-! DEFINITION. Machine/State.lean: everything the manual gives the part, as plain data, and the state right after reset.

INVENTORY.md lists each field with its rule and reset value. Times are counts of the millisecond time base: a timer is
absent (stopped) or holds the count in which it expires (R209). -/

namespace Sys2Proof.Machine

/-- Why the part stops with a fault: it never does. The manual describes no fault (INVENTORY, Faults), so this type has no
constructor and no step of the model ends in one. -/
inductive Fault where
  deriving DecidableEq, Repr

/-- Why a command has no meaning. -/
inductive Refusal where
  /-- Raised by `exec` alone, for a row without a meaning; no row is without one. Safe: nothing follows from it. -/
  | notModelled (mnemonic : String)
  deriving DecidableEq, Repr

/-! ### Slot table (R1) -/

/-- The eight slot states (R1). -/
inductive SlotState where
  | vacant | staged | armed | probing | proxying | waking | dark | releasing
  deriving DecidableEq, Repr

/-- The answer mode (R4). -/
inductive AnswerMode where
  | own | mirrored
  deriving DecidableEq, Repr

/-- The loss policy (R7, R38). -/
inductive LossPolicy where
  | notify | wake
  deriving DecidableEq, Repr

/-- The wake cause (R1, R135). -/
inductive WakeCause where
  | pattern (p : Fin 32)
  | command
  | loss
  deriving DecidableEq, Repr

/-- The five slot counters, 16 bits, saturating (R9, R148). -/
structure SlotCounters where
  answersSent : BitVec 16 := 0
  wakeMatches : BitVec 16 := 0
  lateMatches : BitVec 16 := 0
  claimsSeen : BitVec 16 := 0
  wakePulses : BitVec 16 := 0
  deriving DecidableEq, Repr

/-- A slot record (R1) with its WAKE_n line (R31), wake timers (R130) and attention set (R140). The default values are the
vacant values of R2. -/
structure Slot where
  state : SlotState := .vacant
  client : Option LinkAddr := none
  mode : Option AnswerMode := none
  addresses : List (Fin 96) := []
  patterns : List (Fin 32) := []
  loss : LossPolicy := .notify
  autoRearm : Bool := false
  pulseWidth : Nat := Config.vacantPulseWidth
  wakeTimeout : Nat := Config.vacantWakeTimeout
  wakeRetries : Nat := Config.vacantWakeRetries
  attempts : Nat := 0
  cause : Option WakeCause := none
  outstanding : Nat := 0
  counters : SlotCounters := {}
  /-- WAKE_n is asserted (R31). -/
  wakeLine : Bool := false
  /-- The count in which the pulse timer expires; none while stopped (R130). -/
  pulseDue : Option Nat := none
  /-- The count in which the timeout timer expires; none while stopped (R130). -/
  timeoutDue : Option Nat := none
  /-- The slot attention set, one bit for each kind in the places of R199 (R140). -/
  attention : Byte := 0
  deriving DecidableEq, Repr

/-- The filter of one AWAKE_n line (R28). -/
structure Filter where
  /-- The level of the raw AWAKE_n pin: high while the client runs. -/
  pin : Bool
  /-- The taken level. -/
  taken : Bool
  /-- How many samples in a row have shown the level opposite the taken level. -/
  shown : Nat := 0
  deriving DecidableEq, Repr

/-! ### Address entry pool and index (R10, R17) -/

/-- A family with an address of it: the key of the address index (R10, R17). The first byte is the most significant. -/
inductive Addr where
  | v4 (a : BitVec 32)
  | v6 (a : BitVec 128)
  deriving DecidableEq, Repr

/-- The claim states of an allocated entry (R13). -/
inductive ClaimState where
  | quiet | tentative | held | defended | lost
  deriving DecidableEq, Repr

/-- The four duties (R14, R70). -/
inductive Duty where
  | probe | announce | defend | handback
  deriving DecidableEq, Repr

/-- What an allocated entry holds besides its generation (R10, R14). The default values are those at allocation (R14). -/
structure Binding where
  owner : Fin 16
  addr : Addr
  claim : ClaimState := .quiet
  probesSent : Nat := 0
  /-- The count in which the probe timer expires; none while stopped. -/
  probeDue : Option Nat := none
  /-- The defence deadline (R68). -/
  defenceDue : Option Nat := none
  duty : Option Duty := none
  deriving DecidableEq, Repr

/-- An address entry record: FREE when it holds no binding (R10). -/
structure Entry where
  gen : Byte := 0
  binding : Option Binding := none
  deriving DecidableEq, Repr

/-! ### Pattern pool (R23) -/

/-- The definition of a DEFINED pattern (R23). Flag `i` of the mask is bit `i` (R200). -/
structure PatternDef where
  offset : Nat
  length : Nat
  mask : BitVec 32
  value : Vector Byte 32
  deriving DecidableEq, Repr

/-- A pattern record: EMPTY when it holds no definition (R23). -/
structure Pattern where
  refs : Nat := 0
  definition : Option PatternDef := none
  deriving DecidableEq, Repr

/-! ### Device settings and counters -/

/-- The device settings, with their power-on values (R25). The masks hold one bit for each kind in the places of R199. -/
structure Settings where
  station : LinkAddr := 0
  segment : BitVec 12 := 0
  probeCount : Nat := Config.powerOnProbeCount
  probeInterval : Nat := Config.powerOnProbeInterval
  defenceWindow : Nat := Config.powerOnDefenceWindow
  slotMask : Byte := 0
  deviceMask : Byte := 0
  completionEnable : Bool := false
  deriving DecidableEq, Repr

/-- The seven device counters, 32 bits, saturating (R147). -/
structure DeviceCounters where
  framesTaken : BitVec 32 := 0
  framesRefused : BitVec 32 := 0
  checksumFailures : BitVec 32 := 0
  answersTransmitted : BitVec 32 := 0
  answersDropped : BitVec 32 := 0
  itemsDiscarded : BitVec 32 := 0
  dutiesTransmitted : BitVec 32 := 0
  deriving DecidableEq, Repr

/-! ### Reply queue and transmitter (R97, R98) -/

/-- The kinds of queue item (R98). -/
inductive ItemKind where
  | answerV4
  | answerV6
  | duty (d : Duty)
  deriving DecidableEq, Repr

/-- A queue item: every item has an entry number and a generation, and the rest is present by its kind (R98). -/
inductive Item where
  | answerV4 (entry : Fin 96) (gen : Byte) (peerLink : LinkAddr) (peer : BitVec 32)
  | answerV6 (entry : Fin 96) (gen : Byte) (peerLink : LinkAddr) (peer : Option (BitVec 128)) (solicited : Bool)
  | duty (d : Duty) (entry : Fin 96) (gen : Byte)
  deriving DecidableEq, Repr

/-- The frame in transmission, with the item's kind, entry number and generation (R97). `frame` is the frame as sent, tag
and padding included, the check sequence left out. -/
structure Sending where
  kind : ItemKind
  entry : Fin 96
  gen : Byte
  frame : List Byte
  deriving DecidableEq, Repr

/-- A frame that has ended at the frame port's output, and whether its check sequence is good (R79, R97). -/
structure WireFrame where
  frame : List Byte
  checkGood : Bool
  deriving DecidableEq, Repr

/-! ### Mailbox and management port (R153, R158) -/

/-- A release with announcement in progress: its slot, the release handback set, the discard mark (R51). -/
structure Release where
  slot : Fin 16
  set : List (Fin 96)
  mark : Bool := false
  deriving DecidableEq, Repr

/-- The mailbox state (R158). EXECUTING is the state of a release with announcement in progress (R51). -/
inductive MailboxState where
  | idle
  | executing (r : Release)
  | complete
  deriving DecidableEq, Repr

/-- The mailbox: state, result code, command area (10h to 4Fh), response area (50h to 9Fh) (R158, R195). -/
structure Mailbox where
  state : MailboxState := .idle
  result : Byte := 0
  command : Vector Byte 64 := Vector.replicate 64 0
  response : Vector Byte 80 := Vector.replicate 80 0
  deriving DecidableEq, Repr

/-- How far a transaction on the management port has come (R153). -/
inductive PortPhase where
  /-- No transaction: CS_N is high. -/
  | idle
  /-- Every byte is ignored until CS_N rises (R153, R157). -/
  | ignoring
  /-- Byte 1, the direction, is awaited. -/
  | direction
  /-- Byte 2, the start offset, is awaited. -/
  | start (read : Bool)
  /-- A read: the offset of the data byte now carried (256 once past FFh), and the copy of the status bytes (R156). -/
  | reading (offset : Nat) (copy : List Byte)
  /-- A write: the offset of the data byte now awaited (256 once past FFh). -/
  | writing (offset : Nat)
  deriving DecidableEq, Repr

/-- The management port (R153 to R157). -/
structure Port where
  phase : PortPhase := .idle
  /-- The bits of the present byte sampled so far, first bit first. -/
  bits : List Bool := []
  /-- The byte being shifted out. -/
  out : Byte := 0
  /-- SDO: the level driven, none while it is not driven. -/
  sdo : Option Bool := none
  deriving DecidableEq, Repr

/-! ### The part -/

/-- The whole state of the part, and the queue of commands waiting. -/
structure State where
  slots : Vector Slot 16
  lines : Vector Filter 16
  entries : Vector Entry 96
  index : Vector (Vector (Option (Fin 96)) 4) 64
  patterns : Vector Pattern 32
  settings : Settings
  /-- The device attention set, one bit for each kind in the places of R199 (R140). -/
  deviceAttention : Byte
  counters : DeviceCounters
  queue : List Item
  tx : Option Sending
  /-- The link state: up (R113). -/
  link : Bool
  /-- The frame that last ended at the frame port's output (log 12). -/
  lastEnded : Option WireFrame
  mailbox : Mailbox
  port : Port
  /-- The count of the time base (R209). -/
  now : Nat
  /-- RESET_N is asserted (R146, R157). -/
  resetAsserted : Bool
  /-- The commands waiting, first in first out. -/
  pending : List Instr
  deriving DecidableEq, Repr

/-- The part right after power-on (R2, R13, R17, R24, R25, R29, R31, R97, R113, R140, R149, R158), with the input levels that
log 1 chooses: every AWAKE_n low, LINK low, CS_N high. -/
def State.reset : State where
  slots := Vector.replicate 16 {}
  lines := Vector.replicate 16 { pin := false, taken := false }
  entries := Vector.replicate 96 {}
  index := Vector.replicate 64 (Vector.replicate 4 none)
  patterns := Vector.replicate 32 {}
  settings := {}
  deviceAttention := 0
  counters := {}
  queue := []
  tx := none
  link := false
  lastEnded := none
  mailbox := {}
  port := {}
  now := 0
  resetAsserted := false
  pending := []

end Sys2Proof.Machine
end

