-- ==== Sys2Proof/Machine/Access.lean ====
section
/-! DEFINITION. Machine/Access.lean: the one way to read and write each table of the state. -/

namespace Sys2Proof.Machine

def State.slot (s : State) (n : Fin 16) : Slot := s.slots[n]
def State.setSlot (s : State) (n : Fin 16) (x : Slot) : State := { s with slots := s.slots.set n x }
def State.modSlot (s : State) (n : Fin 16) (f : Slot → Slot) : State := s.setSlot n (f (s.slot n))

def State.line (s : State) (n : Fin 16) : Filter := s.lines[n]
def State.setLine (s : State) (n : Fin 16) (x : Filter) : State := { s with lines := s.lines.set n x }

def State.entry (s : State) (e : Fin 96) : Entry := s.entries[e]
def State.setEntry (s : State) (e : Fin 96) (x : Entry) : State := { s with entries := s.entries.set e x }

/-- The binding of an allocated entry; none for a FREE entry (R10). -/
def State.binding (s : State) (e : Fin 96) : Option Binding := (s.entry e).binding

/-- The claim state of an allocated entry. -/
def State.claim (s : State) (e : Fin 96) : Option ClaimState := (s.binding e).map (·.claim)

/-- The pending duty of an entry; a FREE entry has none (R14). -/
def State.duty (s : State) (e : Fin 96) : Option Duty := (s.binding e).bind (·.duty)

/-- An entry whose binding, if it is allocated, is changed by `f`; its generation stays. -/
def Entry.modBinding (f : Binding → Binding) (x : Entry) : Entry := { x with binding := x.binding.map f }

def State.modBinding (s : State) (e : Fin 96) (f : Binding → Binding) : State :=
  s.setEntry e ((s.entry e).modBinding f)

/-- Every allocated entry `e` of the list `es` changed by `f`. -/
def State.modBindings (s : State) (es : List (Fin 96)) (f : Binding → Binding) : State :=
  { s with entries := tabulate 96 fun e => if e ∈ es then (s.entry e).modBinding f else s.entry e }

def State.pattern (s : State) (p : Fin 32) : Pattern := s.patterns[p]
def State.setPattern (s : State) (p : Fin 32) (x : Pattern) : State := { s with patterns := s.patterns.set p x }

/-- The ways of a bucket of the address index (R17). -/
def State.bucket (s : State) (b : Fin 64) : Vector (Option (Fin 96)) 4 := s.index[b]

/-- The raw level of an AWAKE_n pin, as its client drives it (R28). No row of the table is this event; the taken change is (log 10). -/
def State.setAwakePin (s : State) (n : Fin 16) (level : Bool) : State :=
  s.setLine n { s.line n with pin := level }

end Sys2Proof.Machine
end

