-- ==== Sys2Proof/Machine/Flags.lean ====
section
/-! DEFINITION. Machine/Flags.lean: attention kinds and their flag places, the attention line, and the saturating counters
(spec/07_attention_and_counters.md). -/

namespace Sys2Proof.Machine

/-! ### Kinds (R140, R199) -/

/-- The seven slot kinds (R140). -/
inductive SlotKind where
  | active | armFailed | conflict | defended | wakeSent | wakeFailed | handback
  deriving DecidableEq, Repr

/-- The four device kinds (R140). -/
inductive DeviceKind where
  | linkDown | linkUp | mailboxMisuse | replyDropped
  deriving DecidableEq, Repr

/-- The flag of a slot kind in its place (R199). -/
def SlotKind.flag : SlotKind → Byte
  | .active => 0x01#8 | .armFailed => 0x02#8 | .conflict => 0x04#8 | .defended => 0x08#8
  | .wakeSent => 0x10#8 | .wakeFailed => 0x20#8 | .handback => 0x40#8

/-- The flag of a device kind in its place (R199). -/
def DeviceKind.flag : DeviceKind → Byte
  | .linkDown => 0x01#8 | .linkUp => 0x02#8 | .mailboxMisuse => 0x04#8 | .replyDropped => 0x08#8

/-- The flag places of the slot kinds (R199). -/
def slotKindPlaces : Byte := 0x7F#8
/-- The flag places of the device kinds (R199). -/
def deviceKindPlaces : Byte := 0x0F#8

def Slot.raise (k : SlotKind) (x : Slot) : Slot := { x with attention := x.attention ||| k.flag }

/-- Raises a slot kind in the slot's attention set (R140, R141). -/
def State.raiseSlot (s : State) (n : Fin 16) (k : SlotKind) : State := s.modSlot n (Slot.raise k)

/-- Raises a device kind in the device attention set (R140, R142). -/
def State.raiseDevice (s : State) (k : DeviceKind) : State :=
  { s with deviceAttention := s.deviceAttention ||| k.flag }

/-! ### The attention line (R146) -/

/-- The mailbox is COMPLETE. -/
def State.isComplete (s : State) : Bool := s.mailbox.state == .complete

/-- Some attention set holds a kind whose mask flag is enabled (R146). -/
def State.enabledPending (s : State) : Bool :=
  (List.finRange 16).any (fun n => (s.slot n).attention &&& s.settings.slotMask != 0)
    || s.deviceAttention &&& s.settings.deviceMask != 0

/-- ATTN_N is asserted: an enabled kind is pending, or the mailbox is COMPLETE with the completion enable on; never while
RESET_N is asserted (R146). -/
def attnAsserted (s : State) : Bool :=
  !s.resetAsserted && (s.enabledPending || (s.isComplete && s.settings.completionEnable))

/-! ### Counters (R147, R148) -/

/-- Counting: 1 more, but a counter at its largest value stays there (R9, R147). -/
def satInc {w : Nat} (x : BitVec w) : BitVec w := if x = BitVec.allOnes w then x else x + 1

def DeviceCounters.countTaken (c : DeviceCounters) : DeviceCounters := { c with framesTaken := satInc c.framesTaken }
def DeviceCounters.countRefused (c : DeviceCounters) : DeviceCounters := { c with framesRefused := satInc c.framesRefused }
def DeviceCounters.countChecksum (c : DeviceCounters) : DeviceCounters :=
  { c with checksumFailures := satInc c.checksumFailures }
def DeviceCounters.countAnswer (c : DeviceCounters) : DeviceCounters :=
  { c with answersTransmitted := satInc c.answersTransmitted }
def DeviceCounters.countDropped (c : DeviceCounters) : DeviceCounters :=
  { c with answersDropped := satInc c.answersDropped }
def DeviceCounters.countDiscarded (c : DeviceCounters) : DeviceCounters :=
  { c with itemsDiscarded := satInc c.itemsDiscarded }
def DeviceCounters.countDuty (c : DeviceCounters) : DeviceCounters :=
  { c with dutiesTransmitted := satInc c.dutiesTransmitted }

/-- `k` items discarded (R114). -/
def DeviceCounters.countDiscards (c : DeviceCounters) : Nat → DeviceCounters
  | 0 => c
  | k + 1 => (c.countDiscards k).countDiscarded

def State.count (s : State) (f : DeviceCounters → DeviceCounters) : State := { s with counters := f s.counters }

def SlotCounters.countAnswer (c : SlotCounters) : SlotCounters := { c with answersSent := satInc c.answersSent }
def SlotCounters.countMatch (c : SlotCounters) : SlotCounters := { c with wakeMatches := satInc c.wakeMatches }
def SlotCounters.countLate (c : SlotCounters) : SlotCounters := { c with lateMatches := satInc c.lateMatches }
def SlotCounters.countClaim (c : SlotCounters) : SlotCounters := { c with claimsSeen := satInc c.claimsSeen }
def SlotCounters.countPulse (c : SlotCounters) : SlotCounters := { c with wakePulses := satInc c.wakePulses }

def Slot.count (f : SlotCounters → SlotCounters) (x : Slot) : Slot := { x with counters := f x.counters }

def State.countSlot (s : State) (n : Fin 16) (f : SlotCounters → SlotCounters) : State := s.modSlot n (Slot.count f)

end Sys2Proof.Machine
end

