-- ==== Sys2Proof/WellFormed.lean ====
section
/-! DEFINITION. WellFormed.lean: which commands the bus and the window can spell.

Four rows name an event by the place or the value of a written byte; the checks say which places and values those are.
Every other row has an operand type in which every value is an event of the part. -/

namespace Sys2Proof

/-- Window offsets of the command area, 10h to 4Fh (R195). -/
def inCommandArea (offset : Byte) : Bool :=
  decide (0x10 ≤ offset.toNat) && decide (offset.toNat ≤ 0x4F)

/-- The window offset of the mailbox control byte (R195). -/
def controlOffset : Byte := 0x04#8

/-- The three control values that mean something: GO, ACK, ABORT (R159 to R163). -/
def isControlValue (v : Byte) : Bool :=
  v == 0x01#8 || v == 0x02#8 || v == 0x04#8

/-- The 23 command codes (R168, R201). -/
def isCommandCode (c : Byte) : Bool :=
  (decide (0x01 ≤ c.toNat) && decide (c.toNat ≤ 0x06))
    || (decide (0x10 ≤ c.toNat) && decide (c.toNat ≤ 0x1D))
    || (decide (0x20 ≤ c.toNat) && decide (c.toNat ≤ 0x22))

/-- A command that some event of the part can be. -/
def Instr.wellFormed : Instr → Bool
  | .commandAreaWrite offset _ => inCommandArea offset
  | .windowWriteIgnored offset _ => !inCommandArea offset && offset != controlOffset
  | .invalidControlWrite v => !isControlValue v
  | .unknownCommand c => !isCommandCode c
  | .powerOn _ _ _ | .awakeRises _ | .awakeFalls _ | .linkLoss | .linkUp | .frameTaken _ _
  | .probeTimerExpiry _ | .defenceDeadlineReached _ | .pulseTimerExpiry _ | .wakeTimeoutExpiry _
  | .transmissionComplete | .itemTake | .pendingDutyTaken | .ack | .abort | .setStation _ | .setSegment _
  | .setTiming _ _ _ | .setAttentionMask _ _ _ | .readDevice _ | .deviceReset | .openSlot _ _ _
  | .setSlotPolicy _ _ _ _ _ _ | .addAddress _ _ _ | .removeAddress _ | .attachPattern _ _
  | .detachPattern _ _ | .arm _ | .disarm _ | .wake _ | .release _ _ | .readSlot _ _ | .readEntry _
  | .lookup _ _ | .readAttention _ | .writePattern _ _ _ _ _ | .clearPattern _ | .readPattern _ | .goRefused
  | .resetNAsserted => true

end Sys2Proof
end

