-- ==== Sys2Proof/Decode.lean ====
section
/-! DEFINITION. Decode.lean: byte order, the command area's code and arguments, and the opcode table's words.

No row of spec/opcode_table.json gives bits, so `decodeTableWord` answers none. What the part does decode is its command
area: at GO the command unit reads the code at 10h and the arguments from 11h (R159, R201). `decodeCommand` is that reading,
and `commandCode` and `commandArgs` say which bytes spell a command. -/

namespace Sys2Proof

/-! ### Byte order (R196) -/

/-- The low `n` bytes of `x`, most significant first. -/
def toBytesBE : Nat → Nat → List Byte
  | 0, _ => []
  | n + 1, x => BitVec.ofNat 8 (x / 256 ^ n) :: toBytesBE n x

/-- The number whose bytes, most significant first, are `l`. -/
def ofBytesBE (l : List Byte) : Nat :=
  l.foldl (fun acc b => acc * 256 + b.toNat) 0

/-- The low `n` bytes of `x`, least significant first: numbers in the window (R196). -/
def toBytesLE (n x : Nat) : List Byte := (toBytesBE n x).reverse

/-- The number whose bytes, least significant first, are `l` (R196). -/
def ofBytesLE (l : List Byte) : Nat := ofBytesBE l.reverse

/-- The `len` bytes of `l` that start at place `off`. -/
def slice (l : List Byte) (off len : Nat) : List Byte := (l.drop off).take len

/-- A 6-byte link address as bytes, first byte first (R196). -/
def linkBytes (a : LinkAddr) : List Byte := toBytesBE 6 a.toNat

/-- The byte of `l` at place `i`; 00h past its end. -/
def byteAt (l : List Byte) (i : Nat) : Byte := l.getD i 0#8

/-! ### The command area (R201) -/

/-- The code of a mailbox command; none for an event that is no command. -/
def commandCode : Instr → Option Byte
  | .unknownCommand c => some c
  | .setStation _ => some 0x01#8
  | .setSegment _ => some 0x02#8
  | .setTiming _ _ _ => some 0x03#8
  | .setAttentionMask _ _ _ => some 0x04#8
  | .readDevice _ => some 0x05#8
  | .deviceReset => some 0x06#8
  | .openSlot _ _ _ => some 0x10#8
  | .setSlotPolicy _ _ _ _ _ _ => some 0x11#8
  | .addAddress _ _ _ => some 0x12#8
  | .removeAddress _ => some 0x13#8
  | .attachPattern _ _ => some 0x14#8
  | .detachPattern _ _ => some 0x15#8
  | .arm _ => some 0x16#8
  | .disarm _ => some 0x17#8
  | .wake _ => some 0x18#8
  | .release _ _ => some 0x19#8
  | .readSlot _ _ => some 0x1A#8
  | .readEntry _ => some 0x1B#8
  | .lookup _ _ => some 0x1C#8
  | .readAttention _ => some 0x1D#8
  | .writePattern _ _ _ _ _ => some 0x20#8
  | .clearPattern _ => some 0x21#8
  | .readPattern _ => some 0x22#8
  | .powerOn _ _ _ | .awakeRises _ | .awakeFalls _ | .linkLoss | .linkUp | .frameTaken _ _ => none
  | .probeTimerExpiry _ | .defenceDeadlineReached _ | .pulseTimerExpiry _ | .wakeTimeoutExpiry _ => none
  | .transmissionComplete | .itemTake | .pendingDutyTaken => none
  | .commandAreaWrite _ _ | .windowWriteIgnored _ _ | .ack | .abort | .invalidControlWrite _ => none
  | .goRefused | .resetNAsserted => none

/-- The argument bytes of a mailbox command, from 11h on, in the order and sizes of R201. -/
def commandArgs : Instr → List Byte
  | .setStation a => linkBytes a
  | .setSegment t => toBytesLE 2 t.toNat
  | .setTiming c i w => [c] ++ toBytesLE 2 i.toNat ++ [w]
  | .setAttentionMask s d e => [s, d, e]
  | .readDevice c => [c]
  | .openSlot n a m => [n] ++ linkBytes a ++ [m]
  | .setSlotPolicy n l a p t r => [n, l, a, p] ++ toBytesLE 2 t.toNat ++ [r]
  | .addAddress n f a => [n, f] ++ toBytesBE 16 a.toNat
  | .removeAddress e => [e]
  | .attachPattern n p => [n, p]
  | .detachPattern n p => [n, p]
  | .arm n => [n]
  | .disarm n => [n]
  | .wake n => [n]
  | .release n a => [n, a]
  | .readSlot n c => [n, c]
  | .readEntry e => [e]
  | .lookup f a => [f] ++ toBytesBE 16 a.toNat
  | .readAttention w => [w]
  | .writePattern p o l m v => [p, o, l] ++ toBytesLE 4 m.toNat ++ v.toList
  | .clearPattern p => [p]
  | .readPattern p => [p]
  | .unknownCommand _ | .deviceReset => []
  | .powerOn _ _ _ | .awakeRises _ | .awakeFalls _ | .linkLoss | .linkUp | .frameTaken _ _ => []
  | .probeTimerExpiry _ | .defenceDeadlineReached _ | .pulseTimerExpiry _ | .wakeTimeoutExpiry _ => []
  | .transmissionComplete | .itemTake | .pendingDutyTaken => []
  | .commandAreaWrite _ _ | .windowWriteIgnored _ _ | .ack | .abort | .invalidControlWrite _ => []
  | .goRefused | .resetNAsserted => []

/-- The command that the bytes of the command area spell, the code first: what the command unit reads at GO (R159, R201).
Bytes beyond a command's last argument are not examined. A code that is not a command is UNKNOWN_COMMAND (R168). -/
def decodeCommand (area : List Byte) : Instr :=
  let at1 := fun k => byteAt area (k + 1)
  let le := fun k n => ofBytesLE (slice area (k + 1) n)
  let be := fun k n => ofBytesBE (slice area (k + 1) n)
  match (byteAt area 0).toNat with
  | 0x01 => .setStation (BitVec.ofNat 48 (be 0 6))
  | 0x02 => .setSegment (BitVec.ofNat 16 (le 0 2))
  | 0x03 => .setTiming (at1 0) (BitVec.ofNat 16 (le 1 2)) (at1 3)
  | 0x04 => .setAttentionMask (at1 0) (at1 1) (at1 2)
  | 0x05 => .readDevice (at1 0)
  | 0x06 => .deviceReset
  | 0x10 => .openSlot (at1 0) (BitVec.ofNat 48 (be 1 6)) (at1 7)
  | 0x11 => .setSlotPolicy (at1 0) (at1 1) (at1 2) (at1 3) (BitVec.ofNat 16 (le 4 2)) (at1 6)
  | 0x12 => .addAddress (at1 0) (at1 1) (BitVec.ofNat 128 (be 2 16))
  | 0x13 => .removeAddress (at1 0)
  | 0x14 => .attachPattern (at1 0) (at1 1)
  | 0x15 => .detachPattern (at1 0) (at1 1)
  | 0x16 => .arm (at1 0)
  | 0x17 => .disarm (at1 0)
  | 0x18 => .wake (at1 0)
  | 0x19 => .release (at1 0) (at1 1)
  | 0x1A => .readSlot (at1 0) (at1 1)
  | 0x1B => .readEntry (at1 0)
  | 0x1C => .lookup (at1 0) (BitVec.ofNat 128 (be 1 16))
  | 0x1D => .readAttention (at1 0)
  | 0x20 => .writePattern (at1 0) (at1 1) (at1 2) (BitVec.ofNat 32 (le 3 4)) (tabulate 32 fun i => at1 (7 + i.val))
  | 0x21 => .clearPattern (at1 0)
  | 0x22 => .readPattern (at1 0)
  | _ => .unknownCommand (byteAt area 0)

/-- The command that a word of the opcode table spells. The table gives no row bits (spec/98_reader.md: 0 rows with
fixed, 0 with fields), so no word spells one (log 16). -/
def decodeTableWord (_nbits _w : Nat) : Option Instr := none

end Sys2Proof
end

