-- ==== Sys2Proof/Machine/Operands.lean ====
section
/-! DEFINITION. Machine/Operands.lean: what bytes mean. Command arguments and response codes (R169, R196 to R202), the bucket of a
key (R18), the fields and classes of frames (R80 to R87, R203 to R207), pattern matching (R124), and the frames the part
builds (R107 to R110, R208). Nothing here reads or changes the state. -/

namespace Sys2Proof.Machine

/-! ### Command arguments (R169) -/

/-- A slot number; none above 15 (R169). -/
def slotArg (b : Byte) : Option (Fin 16) :=
  if h : b.toNat < 16 then some ⟨b.toNat, h⟩ else none

/-- An entry number; none above 95 (R169). -/
def entryArg (b : Byte) : Option (Fin 96) :=
  if h : b.toNat < 96 then some ⟨b.toNat, h⟩ else none

/-- A pattern number; none above 31 (R169). -/
def patternArg (b : Byte) : Option (Fin 32) :=
  if h : b.toNat < 32 then some ⟨b.toNat, h⟩ else none

/-- A flag byte: 00h off, 01h on, none otherwise (R169). -/
def flagArg (b : Byte) : Option Bool :=
  if b = 0x00#8 then some false else if b = 0x01#8 then some true else none

/-- An answer mode code (R198); 00h is refused as an argument (R169). -/
def modeArg (b : Byte) : Option AnswerMode :=
  if b = 0x01#8 then some .own else if b = 0x02#8 then some .mirrored else none

/-- A loss policy code (R198). -/
def lossArg (b : Byte) : Option LossPolicy :=
  if b = 0x01#8 then some .notify else if b = 0x02#8 then some .wake else none

/-- The address that R11 refuses for its family are those that are not usable. -/
def Addr.usable : Addr → Bool
  | .v4 a => a != 0 && a != 0xFFFFFFFF#32 && a.toNat / 2 ^ 28 != 0xE
  | .v6 a => a != 0 && a.toNat / 2 ^ 120 != 0xFF

/-- A family code and the 16 bytes of an address argument, of which a V4 address takes the first 4 (R178, R190, R196). -/
def familyArg (family : Byte) (address : BitVec 128) : Option Addr :=
  if family = 0x01#8 then some (.v4 (address.extractLsb' 96 32))
  else if family = 0x02#8 then some (.v6 address)
  else none

/-- A family code with a usable address (R11, R169). -/
def addrArg (family : Byte) (address : BitVec 128) : Option Addr :=
  (familyArg family address).filter Addr.usable

/-- A group address: the low bit of its first byte is set (Terms). -/
def isGroup (a : LinkAddr) : Bool := a.getLsbD 40

/-! ### Response codes (R196, R198) -/

def SlotState.code : SlotState → Byte
  | .vacant => 0x01#8 | .staged => 0x02#8 | .armed => 0x03#8 | .probing => 0x04#8
  | .proxying => 0x05#8 | .waking => 0x06#8 | .dark => 0x07#8 | .releasing => 0x08#8

def AnswerMode.code : AnswerMode → Byte
  | .own => 0x01#8 | .mirrored => 0x02#8

def LossPolicy.code : LossPolicy → Byte
  | .notify => 0x01#8 | .wake => 0x02#8

def ClaimState.code : ClaimState → Byte
  | .quiet => 0x02#8 | .tentative => 0x03#8 | .held => 0x04#8 | .defended => 0x05#8 | .lost => 0x06#8

/-- The entry state of a FREE entry (R198). -/
def freeCode : Byte := 0x01#8

def Duty.code : Duty → Byte
  | .probe => 0x01#8 | .announce => 0x02#8 | .defend => 0x03#8 | .handback => 0x04#8

def WakeCause.code : WakeCause → Byte
  | .pattern _ => 0x01#8 | .command => 0x02#8 | .loss => 0x03#8

/-- The pattern number of a wake cause; 0 unless the cause is PATTERN (R188). -/
def WakeCause.patternNumber : WakeCause → Byte
  | .pattern p => BitVec.ofNat 8 p.val
  | .command | .loss => 0x00#8

/-- 00h for off, low, down, idle or deasserted; 01h for on, high, up, sending or asserted (R196, R198). -/
def flagByte (b : Bool) : Byte := if b then 0x01#8 else 0x00#8

/-- A count as one byte. -/
def countByte (n : Nat) : Byte := BitVec.ofNat 8 n

/-- The bytes of a protocol address, first byte first. -/
def Addr.bytes : Addr → List Byte
  | .v4 a => toBytesBE 4 a.toNat
  | .v6 a => toBytesBE 16 a.toNat

/-- A protocol address in the 16 bytes of a response: a V4 address stands first, with 12 bytes 00h after it (R196). -/
def Addr.responseBytes : Addr → List Byte
  | .v4 a => toBytesBE 4 a.toNat ++ List.replicate 12 0x00#8
  | .v6 a => toBytesBE 16 a.toNat

/-- The family code of an address (R198). -/
def Addr.familyCode : Addr → Byte
  | .v4 _ => 0x01#8 | .v6 _ => 0x02#8

/-- The release forms (R187, R198). -/
def immediateForm : Byte := 0x01#8
def announcedForm : Byte := 0x02#8

/-! ### The bucket of a key (R18) -/

/-- The exclusive-or of some bytes. -/
def xorBytes (l : List Byte) : Byte := l.foldl (· ^^^ ·) 0#8

/-- The bucket that a key selects (R18). -/
def bucketOf (a : Addr) : Fin 64 :=
  match a with
  | .v4 _ => ⟨(xorBytes a.bytes).toNat % 64, Nat.mod_lt _ (by decide)⟩
  | .v6 _ => ⟨(xorBytes a.bytes ^^^ 0x20#8).toNat % 64, Nat.mod_lt _ (by decide)⟩

/-! ### Frame fields (R203 to R206) -/

/-- The value of the `len` bytes at offset `off` of a frame, most significant byte first. -/
def field (f : List Byte) (off len : Nat) : Nat := ofBytesBE (slice f off len)

/-- Destination link address, offsets 0–5 (R203). -/
def destLink (f : List Byte) : LinkAddr := BitVec.ofNat 48 (field f 0 6)

/-- Source link address, offsets 6–11 (R203). -/
def sourceLink (f : List Byte) : LinkAddr := BitVec.ofNat 48 (field f 6 6)

/-- Type, offset 12 (R203). -/
def frameType (f : List Byte) : Nat := field f 12 2

def typeV4Resolution : Nat := 0x0806
def typeIPv4 : Nat := 0x0800
def typeIPv6 : Nat := 0x86DD
/-- The two bytes that mark a segment tag (R80, R206). -/
def tagMark : Nat := 0x8100

/-- The frame with the 4 tag bytes at offset 12 taken out (R80). -/
def removeTag (f : List Byte) : List Byte := f.take 12 ++ f.drop 16

/-- The segment tag test on a frame less its check sequence: the untagged bytes of a frame that passes (R80). -/
def tagTest (segment : BitVec 12) (f : List Byte) : Option (List Byte) :=
  if segment = 0 then
    if frameType f = tagMark then none else some f
  else if frameType f ≠ tagMark then none
  else if field f 14 2 % 4096 ≠ segment.toNat then none
  else if frameType (removeTag f) = tagMark then none
  else some (removeTag f)

def broadcast : LinkAddr := 0xFFFFFFFFFFFF#48
/-- 33:33:00:00:00:01, the link address of FF02::1 (R81, R205). -/
def allNodesLink : LinkAddr := 0x333300000001#48
/-- FF02::1 (R108). -/
def allNodes : BitVec 128 := 0xFF020000000000000000000000000001#128

/-- The low 3 bytes of a V6 address. -/
def low3 (a : BitVec 128) : Nat := a.toNat % 2 ^ 24

/-- The solicited-node group of a V6 address: FF02::1:FF and its low 3 bytes (R85). -/
def solicitedGroup (a : BitVec 128) : BitVec 128 :=
  BitVec.ofNat 128 (0xFF0200000000000000000001FF000000 + low3 a)

/-- The link address of the solicited-node group: 33:33:FF and the low 3 bytes (R81, R205). -/
def solicitedLink (a : BitVec 128) : LinkAddr := BitVec.ofNat 48 (0x3333FF000000 + low3 a)

/-! ### The ICMP checksum (R207) -/

/-- Ones'-complement addition of two 16-bit values: a carry is added back (R207). -/
def onesAdd (a b : Nat) : Nat := if a + b < 65536 then a + b else a + b - 65535

/-- The ones'-complement sum of the 16-bit words of some bytes, an odd last byte completed with 00h (R207). -/
def onesSum : List Byte → Nat
  | [] => 0
  | [a] => a.toNat * 256
  | a :: b :: rest => onesAdd (a.toNat * 256 + b.toNat) (onesSum rest)

/-- The checksum of an ICMP message whose checksum field holds 0000h, between two 16-byte addresses (R207). -/
def icmpChecksum (source dest message : List Byte) : Nat :=
  65535 - onesSum (source ++ dest ++ toBytesBE 4 message.length ++ [0x00#8, 0x00#8, 0x00#8, 0x3A#8] ++ message)

/-- A message with the 2 bytes of its checksum field set to `c` (R205, R207). -/
def withChecksum (message : List Byte) (c : Nat) : List Byte :=
  message.take 2 ++ toBytesBE 2 c ++ message.drop 4

/-! ### Resolution frames (R84 to R86) -/

/-- A resolution frame with the fields that the claim and answer steps read (R61, R90). -/
inductive ResFrame where
  /-- V4 REQUEST (operation 1) or V4 REPLY (operation 2): sender and target protocol address (R84). -/
  | v4 (request : Bool) (sender target : BitVec 32)
  /-- V6 SOLICIT (type 135) or V6 ADVERT (type 136): IPv6 source and target address (R85). -/
  | v6 (solicit : Bool) (source target : BitVec 128)
  deriving DecidableEq, Repr

/-- The conditions of R84. -/
def isV4Resolution (f : List Byte) : Bool :=
  frameType f == typeV4Resolution && field f 14 2 == 1 && field f 16 2 == 0x0800 && field f 18 1 == 6
    && field f 19 1 == 4 && (field f 20 2 == 1 || field f 20 2 == 2) && decide (42 ≤ f.length)

def readV4Resolution (f : List Byte) : ResFrame :=
  .v4 (field f 20 2 == 1) (BitVec.ofNat 32 (field f 28 4)) (BitVec.ofNat 32 (field f 38 4))

/-- The IPv6 payload length, which is the ICMP message length (R85). -/
def v6PayloadLength (f : List Byte) : Nat := field f 18 2

def v6Source (f : List Byte) : BitVec 128 := BitVec.ofNat 128 (field f 22 16)
def v6Dest (f : List Byte) : BitVec 128 := BitVec.ofNat 128 (field f 38 16)
def v6Target (f : List Byte) : BitVec 128 := BitVec.ofNat 128 (field f 62 16)

/-- The seven structural conditions of R85, in its order. -/
def isV6Neighbour (f : List Byte) : Bool :=
  frameType f == typeIPv6 && field f 20 1 == 58 && field f 21 1 == 255
    && (field f 54 1 == 135 || field f 54 1 == 136) && field f 55 1 == 0
    && decide (24 ≤ v6PayloadLength f) && decide (54 + v6PayloadLength f ≤ f.length)
    && field f 62 1 != 0xFF
    && (field f 54 1 == 136 || v6Dest f == v6Target f || v6Dest f == solicitedGroup (v6Target f))

/-- The checksum test of R86 and R207. -/
def checksumGood (f : List Byte) : Bool :=
  field f 56 2 ==
    icmpChecksum (slice f 22 16) (slice f 38 16) (withChecksum (slice f 54 (v6PayloadLength f)) 0)

def readV6Neighbour (f : List Byte) : ResFrame :=
  .v6 (field f 54 1 == 135) (v6Source f) (v6Target f)

/-- The destination protocol address of a frame to the station address (R87). -/
def destProtocol (f : List Byte) : Option Addr :=
  if frameType f = typeIPv4 then some (.v4 (BitVec.ofNat 32 (field f 30 4)))
  else if frameType f = typeIPv6 then some (.v6 (BitVec.ofNat 128 (field f 38 16)))
  else none

/-- The two forms of a claim (R61). -/
inductive ClaimForm where
  | use | probe
  deriving DecidableEq, Repr

/-- The one address a resolution frame claims, with the form of the claim (R61). -/
def ResFrame.claimed : ResFrame → Option (Addr × ClaimForm)
  | .v4 true sender target => if sender = 0 then some (.v4 target, .probe) else some (.v4 sender, .use)
  | .v4 false sender _ => if sender = 0 then none else some (.v4 sender, .use)
  | .v6 true source target => if source = 0 then some (.v6 target, .probe) else some (.v6 source, .use)
  | .v6 false _ target => some (.v6 target, .use)

/-- The target that the answer step looks up; a reply and an advertisement have none (R89, R90). -/
def ResFrame.asked : ResFrame → Option Addr
  | .v4 true _ target => some (.v4 target)
  | .v6 true _ target => some (.v6 target)
  | .v4 false _ _ => none
  | .v6 false _ _ => none

/-- The answer item made for a request from the link address `peer`, for entry `e` at generation `gen` (R91). A V4 REPLY or a V6
ADVERT has no answer step. -/
def ResFrame.answer (r : ResFrame) (peer : LinkAddr) (e : Fin 96) (gen : Byte) : Option Item :=
  match r with
  | .v4 true sender _ => some (.answerV4 e gen peer sender)
  | .v6 true source _ => some (.answerV6 e gen peer (if source = 0 then none else some source) (source != 0))
  | .v4 false _ _ => none
  | .v6 false _ _ => none

/-! ### Pattern matching (R124) -/

/-- One pattern matches one frame (R124). -/
def PatternDef.hits (d : PatternDef) (f : List Byte) : Bool :=
  decide (d.offset + d.length ≤ f.length)
    && (List.range d.length).all fun i =>
      !d.mask.getLsbD i || byteAt f (d.offset + i) == byteAt d.value.toList i

/-! ### Frames sent (R107 to R110, R203 to R208) -/

/-- A V4 resolution frame as built, padded to 60 bytes (R204, R208). -/
def v4Frame (dest source : LinkAddr) (operation : Nat) (senderHw : LinkAddr) (sender : BitVec 32)
    (targetHw : LinkAddr) (target : BitVec 32) : List Byte :=
  linkBytes dest ++ linkBytes source ++ toBytesBE 2 typeV4Resolution
    ++ toBytesBE 2 1 ++ toBytesBE 2 0x0800 ++ [0x06#8, 0x04#8] ++ toBytesBE 2 operation
    ++ linkBytes senderHw ++ toBytesBE 4 sender.toNat ++ linkBytes targetHw ++ toBytesBE 4 target.toNat
    ++ List.replicate 18 0x00#8

/-- The ICMP message of a V6 frame as built, its checksum field 0000h (R205). -/
def icmpMessage (type : Byte) (flags : Byte) (target : BitVec 128) (option : Option LinkAddr) : List Byte :=
  [type, 0x00#8, 0x00#8, 0x00#8, flags, 0x00#8, 0x00#8, 0x00#8] ++ toBytesBE 16 target.toNat
    ++ match option with
       | some a => [0x02#8, 0x01#8] ++ linkBytes a
       | none => []

/-- A V6 neighbour message as built, its checksum computed (R205, R207). -/
def v6Frame (dest source : LinkAddr) (ipSource ipDest : BitVec 128) (message : List Byte) : List Byte :=
  let src := toBytesBE 16 ipSource.toNat
  let dst := toBytesBE 16 ipDest.toNat
  linkBytes dest ++ linkBytes source ++ toBytesBE 2 typeIPv6
    ++ [0x60#8, 0x00#8, 0x00#8, 0x00#8] ++ toBytesBE 2 message.length ++ [0x3A#8, 0xFF#8] ++ src ++ dst
    ++ withChecksum message (icmpChecksum src dst message)

/-- The flags byte of an advertisement: router clear, solicited as given, override set (R108, R205). -/
def advertFlags (solicited : Bool) : Byte := if solicited then 0x60#8 else 0x20#8

def icmpSolicit : Byte := 0x87#8
def icmpAdvert : Byte := 0x88#8

/-- A PROBE frame (R109). -/
def probeFrame (client : LinkAddr) : Addr → List Byte
  | .v4 a => v4Frame broadcast client 1 client 0 0 a
  | .v6 a => v6Frame (solicitedLink a) client 0 (solicitedGroup a) (icmpMessage icmpSolicit 0x00#8 a none)

/-- An ANNOUNCE, DEFEND or HANDBACK frame, which binds the address to `bound` (R110). -/
def announcementFrame (bound : LinkAddr) : Addr → List Byte
  | .v4 a => v4Frame broadcast bound 1 bound a 0 a
  | .v6 a => v6Frame allNodesLink bound a allNodes (icmpMessage icmpAdvert (advertFlags false) a (some bound))

/-- The address in a V4 field; of a V6 address the 4 bytes are free (R210; log 17). -/
def Addr.inV4 : Addr → BitVec 32
  | .v4 a => a
  | .v6 a => Config.fitV4 a

/-- The address in a V6 field; of a V4 address the 16 bytes are free (R210; log 17). -/
def Addr.inV6 : Addr → BitVec 128
  | .v6 a => a
  | .v4 a => Config.fitV6 a

/-- An ANSWER_V4 frame (R107). -/
def answerV4Frame (answer peerLink : LinkAddr) (peer : BitVec 32) (a : Addr) : List Byte :=
  v4Frame peerLink answer 2 answer a.inV4 peerLink peer

/-- An ANSWER_V6 frame; without a peer protocol address it goes to all nodes (R108). DEDUCED (log 18): to every peer protocol address,
a multicast one included, it goes to the peer link address, as the table of R108 gives; section 5.4 says that it, and not Formats,
gives what each field of a built frame carries. -/
def answerV6Frame (answer peerLink : LinkAddr) (peer : Option (BitVec 128)) (solicited : Bool) (a : Addr) : List Byte :=
  let message := icmpMessage icmpAdvert (advertFlags solicited) a.inV6 (some answer)
  match peer with
  | some p => v6Frame peerLink answer a.inV6 p message
  | none => v6Frame allNodesLink answer a.inV6 allNodes message

/-- The segment tag in place after the source link address, when it is not 0 (R208). -/
def insertTag (segment : BitVec 12) (f : List Byte) : List Byte :=
  if segment = 0 then f
  else f.take 12 ++ toBytesBE 2 tagMark ++ toBytesBE 2 segment.toNat ++ f.drop 12

/-- The bytes that a frame sent whole puts on the wire: the frame and its check sequence (R208). -/
def wireBytes (f : List Byte) : List Byte := f ++ (Config.checkSequence f).toList

end Sys2Proof.Machine
end

