-- ==== Sys2Proof/Machine/Ops.lean ====
section
/-! DEFINITION. Machine/Ops.lean: the operations that the meanings share, block by block: the binding table, the reply queue, the
slot controller, the transmitter, the mailbox; and what every event has in common (`event`, `runCommand`). -/

namespace Sys2Proof.Machine

/-! ### Slots -/

/-- A slot that stands in for a sleeping client: PROBING, PROXYING, WAKING or DARK (R81, R30). -/
def SlotState.standsIn : SlotState → Bool
  | .probing | .proxying | .waking | .dark => true
  | .vacant | .staged | .armed | .releasing => false

/-- The slot states in which a held entry is answered: PROXYING or WAKING (R90, R104). -/
def SlotState.answers : SlotState → Bool
  | .proxying | .waking => true
  | .vacant | .staged | .armed | .probing | .dark | .releasing => false

/-- The slot states in which claims against held entries are acted on: PROBING, PROXYING or WAKING (R62). -/
def SlotState.defends : SlotState → Bool
  | .probing | .proxying | .waking => true
  | .vacant | .staged | .armed | .dark | .releasing => false

/-- HELD or DEFENDED. -/
def ClaimState.isHeld : ClaimState → Bool
  | .held | .defended => true
  | .quiet | .tentative | .lost => false

/-- The entry is allocated and HELD or DEFENDED. -/
def State.isHeld (s : State) (e : Fin 96) : Bool := (s.claim e).any ClaimState.isHeld

/-- Some entry of the slot's address list is HELD or DEFENDED. -/
def State.slotHeld (s : State) (n : Fin 16) : Bool := (s.slot n).addresses.any s.isHeld

/-- Some entry of the slot's address list is TENTATIVE. -/
def State.slotTentative (s : State) (n : Fin 16) : Bool :=
  (s.slot n).addresses.any fun e => s.claim e == some .tentative

/-- Some slot fulfils `p`. -/
def State.anySlot (s : State) (p : Slot → Bool) : Bool := (List.finRange 16).any fun n => p (s.slot n)

/-! ### The binding table (R15 to R21) -/

/-- The entry that way `w` refers to, when its key is `a` (R19). -/
def State.wayMatch (s : State) (a : Addr) (w : Option (Fin 96)) : Option (Fin 96) :=
  w.filter fun e => (s.binding e).map (·.addr) == some a

/-- The look-up of a key in the 4 ways of its bucket; empty ways are skipped (R19). -/
def State.lookup (s : State) (a : Addr) : Option (Fin 96) :=
  (s.bucket (bucketOf a)).toList.findSome? (s.wayMatch a)

/-- The lowest-numbered FREE entry (R15). -/
def State.lowestFree (s : State) : Option (Fin 96) :=
  (List.finRange 96).find? fun e => (s.binding e).isNone

/-- The lowest-numbered empty way of a bucket (R20). -/
def State.lowestWay (s : State) (b : Fin 64) : Option (Fin 4) :=
  (List.finRange 4).find? fun w => (s.bucket b)[w] == none

/-- Entry `e` allocated for slot `n` and key `a`, in way `w` of the key's bucket, at the end of the slot's list (R15, R20). -/
def State.insert (s : State) (n : Fin 16) (a : Addr) (e : Fin 96) (w : Fin 4) : State :=
  let b := bucketOf a
  let s := s.setEntry e { s.entry e with binding := some { owner := n, addr := a } }
  let s := { s with index := s.index.set b ((s.bucket b).set w (some e)) }
  s.modSlot n fun x => { x with addresses := x.addresses ++ [e] }

/-- A freed record: FREE, its generation one more, wrapping from 255 to 0; a FREE record stays as it is (R13, R16). -/
def Entry.free (x : Entry) : Entry :=
  if x.binding.isSome then { gen := x.gen + 1, binding := none } else x

/-- An index way after the entries `es` are freed: emptied if it refers to one of them (R16, R21). -/
def emptyWay (es : List (Fin 96)) (w : Option (Fin 96)) : Option (Fin 96) := w.filter fun e => !decide (e ∈ es)

/-- The freeing of the entries `es`: their records, their index ways and their places in the address lists (R16). -/
def State.freeEntries (s : State) (es : List (Fin 96)) : State :=
  { s with
    entries := tabulate 96 fun e => if e ∈ es then (s.entry e).free else s.entry e
    index := tabulate 64 fun b => tabulate 4 fun w => emptyWay es (s.bucket b)[w]
    slots := tabulate 16 fun n =>
      { s.slot n with addresses := (s.slot n).addresses.filter fun e => !decide (e ∈ es) } }

/-- Each pattern of the list `ps` has its reference count reduced by 1 (R24, R123). -/
def State.releasePatterns (s : State) (ps : List (Fin 32)) : State :=
  { s with
    patterns := tabulate 32 fun p =>
      if p ∈ ps then { s.pattern p with refs := (s.pattern p).refs - 1 } else s.pattern p }

/-- Slot `n` becomes VACANT: WAKE_n deasserted and its timers stopped, its entries freed, its pattern references released, its
attention set emptied, its fields at the vacant values; its counters stay (R2, R54). -/
def State.becomeVacant (s : State) (n : Fin 16) : State :=
  let x := s.slot n
  let s := (s.freeEntries x.addresses).releasePatterns x.patterns
  s.setSlot n { counters := x.counters }

/-! ### The reply queue (R97 to R102) -/

def Item.entry : Item → Fin 96
  | .answerV4 e _ _ _ => e
  | .answerV6 e _ _ _ _ => e
  | .duty _ e _ => e

def Item.gen : Item → Byte
  | .answerV4 _ g _ _ => g
  | .answerV6 _ g _ _ _ => g
  | .duty _ _ g => g

def Item.kind : Item → ItemKind
  | .answerV4 _ _ _ _ => .answerV4
  | .answerV6 _ _ _ _ _ => .answerV6
  | .duty d _ _ => .duty d

/-- A pending duty of an entry is offered to the queue: it becomes an item when the link is up and the occupancy is below
16, and stays pending otherwise (R100). -/
def State.offerDuty (s : State) (e : Fin 96) : State :=
  match s.duty e with
  | none => s
  | some d =>
    if s.link && decide (s.queue.length < Config.queueLimit) then
      let item := Item.duty d e (s.entry e).gen
      { s.modBinding e (fun b => { b with duty := none }) with queue := s.queue ++ [item] }
    else s

/-- The duties that one event set on the entries `es`, offered in entry-number order, lowest first (R100). -/
def State.offerDuties (s : State) (es : List (Fin 96)) : State :=
  ((List.finRange 96).filter fun e => decide (e ∈ es)).foldl State.offerDuty s

/-- Every waiting duty offered in entry-number order (R116). -/
def State.offerAll (s : State) : State := (List.finRange 96).foldl State.offerDuty s

/-- The lowest-numbered entry that has a pending duty (R101). -/
def State.lowestDuty (s : State) : Option (Fin 96) :=
  (List.finRange 96).find? fun e => (s.duty e).isSome

/-- A free place of the queue is given to the lowest-numbered waiting duty (R101). -/
def State.givePlace (s : State) : State :=
  match s.lowestDuty with
  | some e => s.offerDuty e
  | none => s

/-- An answer is offered: admitted when the link is up and the occupancy is below 12, dropped and counted otherwise (R99). -/
def State.offerAnswer (s : State) (item : Item) : State :=
  if s.link && decide (s.queue.length < Config.answerLimit) then { s with queue := s.queue ++ [item] }
  else (s.count DeviceCounters.countDropped).raiseDevice .replyDropped

/-! ### The transmitter (R103 to R110) -/

/-- The state condition of R104 for an item's kind. -/
def kindValid (k : ItemKind) (claim : ClaimState) (slot : SlotState) : Bool :=
  match k with
  | .answerV4 | .answerV6 => claim.isHeld && slot.answers
  | .duty .probe => claim == .tentative
  | .duty .announce => claim.isHeld
  | .duty .defend => claim == .defended
  | .duty .handback => claim == .quiet && (slot == .staged || slot == .armed || slot == .releasing)

/-- Validation of an item against its entry and the entry's owner slot (R104). -/
def State.valid (s : State) (i : Item) : Bool :=
  (s.entry i.entry).gen == i.gen &&
    match s.binding i.entry with
    | none => false
    | some b => kindValid i.kind b.claim (s.slot b.owner).state

/-- The client address of a slot; an absent one, which no slot with entries has (log 15), reads zero. -/
def Slot.clientAddress (x : Slot) : LinkAddr := x.client.getD 0

/-- The answer address of a slot: the station address in OWN mode, the client address in MIRRORED mode (R4, R106). -/
def State.answerAddress (s : State) (n : Fin 16) : LinkAddr :=
  match (s.slot n).mode with
  | some .own => s.settings.station
  | some .mirrored | none => (s.slot n).clientAddress

/-- The frame of an item for binding `b`, built from the records as they stand, untagged (R106 to R110). -/
def State.frameOf (s : State) (i : Item) (b : Binding) : List Byte :=
  let client := (s.slot b.owner).clientAddress
  let answer := s.answerAddress b.owner
  match i with
  | .answerV4 _ _ peerLink peer => answerV4Frame answer peerLink peer b.addr
  | .answerV6 _ _ peerLink peer solicited => answerV6Frame answer peerLink peer solicited b.addr
  | .duty .probe _ _ => probeFrame client b.addr
  | .duty .announce _ _ => announcementFrame answer b.addr
  | .duty .defend _ _ => announcementFrame answer b.addr
  | .duty .handback _ _ => announcementFrame client b.addr

/-- The frame as sent, with the segment tag in force (R208). -/
def State.buildFrame (s : State) (i : Item) : List Byte :=
  match s.binding i.entry with
  | none => []
  | some b => insertTag s.settings.segment (s.frameOf i b)

/-- What the transmitter holds while it sends the frame of an item (R97). -/
def State.sendingOf (s : State) (i : Item) : Sending :=
  { kind := i.kind, entry := i.entry, gen := i.gen, frame := s.buildFrame i }

/-- The head item leaves the queue and gives its place to a waiting duty; it is sent if it is valid, and discarded and counted
otherwise (R101, R103 to R105). The slot controller's hearing of a discarded HANDBACK changes nothing (R52, R105). -/
def State.takeHead (s : State) : State :=
  match s.queue with
  | [] => s
  | item :: rest =>
    let s := State.givePlace { s with queue := rest }
    if s.valid item then { s with tx := some (s.sendingOf item) } else s.count DeviceCounters.countDiscarded

/-- The transmitter can take an item: it is idle, the link is up and the queue is not empty (R103). -/
def State.canTake (s : State) : Bool := s.tx.isNone && s.link && !s.queue.isEmpty

/-- At most `k` items taken one after another (R105). -/
def State.takeItems : Nat → State → State
  | 0, s => s
  | k + 1, s => if s.canTake then State.takeItems k s.takeHead else s

/-- How many pending duties wait. -/
def State.waiting (s : State) : Nat := ((List.finRange 96).filter fun e => (s.duty e).isSome).length

/-- The transmitter takes items until it is sending or the queue is empty: each item taken is one of those queued or waiting
(R103, R105). -/
def State.serve (s : State) : State := State.takeItems (s.queue.length + s.waiting) s

/-! ### Waking (R39, R131) -/

/-- A wake attempt begins: WAKE_n asserted, both timers started, the pulse counted, and WAKE_SENT raised for a first one (R131). -/
def Slot.beginAttempt (now : Nat) (first : Bool) (x : Slot) : Slot :=
  let x := { x with
    wakeLine := true
    pulseDue := some (now + x.pulseWidth)
    timeoutDue := some (now + x.wakeTimeout)
    counters := x.counters.countPulse }
  if first then x.raise .wakeSent else x

/-- The slot goes to WAKING with a cause and its first attempt (R39, R137). -/
def State.startWake (s : State) (n : Fin 16) (cause : WakeCause) : State :=
  s.modSlot n fun x => Slot.beginAttempt s.now true { x with state := .waking, cause := some cause, attempts := 1 }

/-- A wake trigger: it acts on a PROXYING slot only (R39, R40). -/
def State.wakeTrigger (s : State) (n : Fin 16) (cause : WakeCause) : State :=
  if (s.slot n).state = .proxying then s.startWake n cause else s

/-- WAKE_n deasserted and both wake timers stopped (R31). -/
def Slot.endWake (x : Slot) : Slot := { x with wakeLine := false, pulseDue := none, timeoutDue := none }

/-! ### Probing (R33 to R37) -/

/-- An entry at the probing start: TENTATIVE, probes sent 0, timer stopped, a PROBE duty (R33, R57). -/
def Binding.startProbing (b : Binding) : Binding :=
  { b with claim := .tentative, probesSent := 0, probeDue := none, defenceDue := none, duty := some .probe }

/-- The slot enters PROBING with the probing start (R33). -/
def State.probingStart (s : State) (n : Fin 16) : State :=
  let es := (s.slot n).addresses
  let s := (s.modBindings es Binding.startProbing).modSlot n fun x => { x with state := .probing }
  s.offerDuties es

/-- The end-of-probing examination of a slot (R35 to R37). -/
def State.endOfProbing (s : State) (n : Fin 16) : State :=
  if (s.slot n).state = .probing ∧ s.slotTentative n = false then
    if s.slotHeld n then s.modSlot n fun x => { x with state := .proxying }.raise .active
    else s.modSlot n fun x => { x with state := .staged }.raise .armFailed
  else s

/-! ### Handback and DARK (R42, R44, R45) -/

/-- An entry at a handback of a slot in mode `m` (R45). -/
def Binding.handBack (m : Option AnswerMode) (b : Binding) : Binding :=
  match b.claim with
  | .tentative => { b with claim := .quiet, probeDue := none, duty := none }
  | .held | .defended =>
    { b with claim := .quiet, defenceDue := none, duty := if m = some .own then some .handback else none }
  | .lost => { b with duty := none }
  | .quiet => b

/-- The handback of a slot (R44, R45). -/
def State.handback (s : State) (n : Fin 16) : State :=
  let es := (s.slot n).addresses
  let s := (s.modBindings es (Binding.handBack (s.slot n).mode)).modSlot n fun x =>
    { x.endWake with state := if x.autoRearm then .armed else .staged }.raise .handback
  s.offerDuties es

/-- An entry whose defence ends with the entry HELD: deadline and pending DEFEND cleared (R42, R68). -/
def Binding.endDefence (b : Binding) : Binding :=
  if b.claim = .defended then
    { b with claim := .held, defenceDue := none, duty := if b.duty = some .defend then none else b.duty }
  else b

/-- The slot enters DARK (R42). -/
def State.enterDark (s : State) (n : Fin 16) : State :=
  (s.modBindings (s.slot n).addresses Binding.endDefence).modSlot n fun x =>
    { x.endWake with state := .dark }.raise .wakeFailed

/-! ### The mailbox (R158 to R165) -/

/-- The results of a command (R197). -/
inductive Result where
  | ok | unknownCommand | badParameter | wrongState | noRoom | bucketFull | duplicateAddress | duplicateHost
  | slotFull | inUse | notFound | noStation | emptySlot | partialEnd | aborted
  deriving DecidableEq, Repr

/-- The result codes (R197). -/
def Result.code : Result → Byte
  | .ok => 0x00#8 | .unknownCommand => 0x01#8 | .badParameter => 0x02#8 | .wrongState => 0x03#8
  | .noRoom => 0x04#8 | .bucketFull => 0x05#8 | .duplicateAddress => 0x06#8 | .duplicateHost => 0x07#8
  | .slotFull => 0x08#8 | .inUse => 0x09#8 | .notFound => 0x0A#8 | .noStation => 0x0B#8
  | .emptySlot => 0x0C#8 | .partialEnd => 0x0D#8 | .aborted => 0x0E#8

/-- The response area: header, response data, and 00h in every byte beyond (R165, R202). -/
def responseArea (code : Byte) (r : Result) (data : List Byte) : Vector Byte 80 :=
  tabulate 80 fun i => byteAt ([code, r.code, countByte data.length] ++ data) i

/-- A completion: COMPLETE, the result code and the whole response area written together; the header's command code is the one
in the command area (R165, R202). -/
def State.complete (s : State) (r : Result) (data : List Byte) : State :=
  { s with mailbox := { s.mailbox with
      state := .complete
      result := r.code
      response := responseArea s.mailbox.command[0] r data } }

/-- A write that the mailbox refuses: MAILBOX_MISUSE is raised and nothing else changes (R142). -/
def State.misuse (s : State) : State := s.raiseDevice .mailboxMisuse

/-- The code and arguments of a command placed in the command area, as software wrote them before GO (R159, R201). -/
def State.placeCommand (s : State) (i : Instr) : State :=
  let bytes := (commandCode i).toList ++ commandArgs i
  { s with mailbox := { s.mailbox with command := tabulate 64 fun k => bytes.getD k s.mailbox.command[k] } }

/-- How a command ends within its GO event (R168). -/
inductive Reply where
  /-- A check failed: nothing is changed (R168). -/
  | refuse (r : Result)
  /-- The command is carried out and completes with OK and its response data (R168). -/
  | done (data : List Byte) (t : State)
  /-- A RELEASE with announcement: the mailbox is left EXECUTING (R160). -/
  | started (t : State)

/-- The GO of a command: in IDLE its body is executed on the command area that spells it; in EXECUTING and COMPLETE the GO is
refused with MAILBOX_MISUSE (R159, R168; log 2, log 3). -/
def runCommand (i : Instr) (body : State → Reply) (s : State) : State :=
  match s.mailbox.state with
  | .idle =>
    let s := s.placeCommand i
    match body s with
    | .refuse r => s.complete r []
    | .done data t => t.complete .ok data
    | .started t => t
  | .executing _ => s.misuse
  | .complete => s.misuse

/-! ### Releases with announcement (R51 to R53) -/

/-- An entry when its slot enters RELEASING: QUIET, with a HANDBACK duty if it was HELD or DEFENDED (R51, R186). -/
def Binding.release (b : Binding) : Binding :=
  { b with
    claim := .quiet
    probeDue := none
    defenceDue := none
    duty := if b.claim.isHeld then some .handback else none }

/-- The slot enters RELEASING and the mailbox EXECUTING (R51, R160, R186). -/
def State.enterReleasing (s : State) (n : Fin 16) : State :=
  let es := (s.slot n).addresses
  let held := es.filter s.isHeld
  let s := (s.modBindings es Binding.release).modSlot n fun x =>
    { x.endWake with state := .releasing, outstanding := held.length }
  let s := { s with mailbox := { s.mailbox with state := .executing { slot := n, set := held } } }
  s.offerDuties held

/-- The RELEASE response (R187). -/
def releaseResponse (n : Fin 16) (form : Byte) (x : Slot) : List Byte :=
  [countByte n.val, form, countByte x.addresses.length, countByte x.outstanding]

/-- A release in progress ends with result `r`: the slot becomes VACANT and the mailbox COMPLETE (R53, R187). -/
def State.finishRelease (s : State) (n : Fin 16) (r : Result) : State :=
  (s.becomeVacant n).complete r (releaseResponse n announcedForm (s.slot n))

/-- Entry `e` leaves the release handback set, if it is in it; a discard sets the discard mark (R52). -/
def State.leaveSet (discard : Bool) (s : State) (e : Fin 96) : State :=
  match s.mailbox.state with
  | .executing r =>
    if e ∈ r.set then
      let r' : Release := { r with set := r.set.erase e, mark := r.mark || discard }
      { s.modSlot r.slot (fun x => { x with outstanding := x.outstanding - 1 }) with
        mailbox := { s.mailbox with state := .executing r' } }
    else s
  | .idle => s
  | .complete => s

/-- The release ends when outstanding handbacks has reached 0 (R53). -/
def State.endReleaseIfDone (s : State) : State :=
  match s.mailbox.state with
  | .executing r =>
    if (s.slot r.slot).outstanding = 0 then s.finishRelease r.slot (if r.mark then .partialEnd else .ok) else s
  | .idle => s
  | .complete => s

/-! ### Events -/

/-- What every event has in common: while RESET_N is asserted the part takes none (log 9); at its end the transmitter takes
what it can (R103; log 8). -/
def event (f : State → State) (s : State) : Host.Outcome State Fault Refusal :=
  if s.resetAsserted then .next s else .next (f s).serve

end Sys2Proof.Machine
end

