-- ==== Sys2Proof/Machine/Arming.lean ====
section
/-! DEFINITION. Machine/Arming.lean: arming, disarming, waking and releasing a slot (spec/09_command_reference.md, 9.5 and 9.6).
Each body makes its checks in the order of its rule (R168). -/

namespace Sys2Proof.Machine

/-- ARM (R29, R182). The data is the slot state that results. -/
def armBody (slot : Byte) (s : State) : Reply :=
  match slotArg slot with
  | none => .refuse .badParameter
  | some n =>
    if (s.slot n).state ≠ .staged then .refuse .wrongState
    else if (s.slot n).mode = some .own ∧ s.settings.station = 0 then .refuse .noStation
    else if (s.slot n).addresses = [] then .refuse .emptySlot
    else if (s.line n).taken then .done [SlotState.armed.code] (s.modSlot n fun x => { x with state := .armed })
    else .done [SlotState.probing.code] (s.probingStart n)

def execArm (slot : Byte) (s : State) : Host.Outcome State Fault Refusal :=
  event (runCommand (.arm slot) (armBody slot)) s

/-- An entry at a DISARM from PROBING (R183). -/
def Binding.disarm (b : Binding) : Binding :=
  match b.claim with
  | .tentative | .held | .defended => { b with claim := .quiet, probeDue := none, defenceDue := none, duty := none }
  | .quiet | .lost => b

/-- DISARM (R183). -/
def disarmBody (slot : Byte) (s : State) : Reply :=
  match slotArg slot with
  | none => .refuse .badParameter
  | some n =>
    match (s.slot n).state with
    | .armed => .done [] (s.modSlot n fun x => { x with state := .staged })
    | .probing =>
      .done [] ((s.modBindings (s.slot n).addresses Binding.disarm).modSlot n fun x => { x with state := .staged })
    | .vacant | .staged | .proxying | .waking | .dark | .releasing => .refuse .wrongState

def execDisarm (slot : Byte) (s : State) : Host.Outcome State Fault Refusal :=
  event (runCommand (.disarm slot) (disarmBody slot)) s

/-- WAKE (R40, R137, R184). -/
def wakeBody (slot : Byte) (s : State) : Reply :=
  match slotArg slot with
  | none => .refuse .badParameter
  | some n =>
    match (s.slot n).state with
    | .proxying | .dark => .done [] (s.startWake n .command)
    | .vacant | .staged | .armed | .probing | .waking | .releasing => .refuse .wrongState

def execWake (slot : Byte) (s : State) : Host.Outcome State Fault Refusal :=
  event (runCommand (.wake slot) (wakeBody slot)) s

/-- RELEASE: with announcement when the flag is on and the slot is OWN with a held entry, immediate otherwise (R185 to R187). -/
def releaseBody (slot announce : Byte) (s : State) : Reply :=
  match slotArg slot, flagArg announce with
  | some n, some on =>
    if (s.slot n).state = .vacant then .refuse .wrongState
    else if on ∧ (s.slot n).mode = some .own ∧ s.slotHeld n then .started (s.enterReleasing n)
    else .done (releaseResponse n immediateForm (s.slot n)) (s.becomeVacant n)
  | none, _ => .refuse .badParameter
  | some _, none => .refuse .badParameter

def execRelease (slot announce : Byte) (s : State) : Host.Outcome State Fault Refusal :=
  event (runCommand (.release slot announce) (releaseBody slot announce)) s

end Sys2Proof.Machine
end

