-- ==== Sys2Proof/Machine/Frames.lean ====
section
/-! DEFINITION. Machine/Frames.lean: FRAME_TAKEN, the frame intake (spec/04_frame_intake.md), the claim step
(spec/03_claiming_and_defending_addresses.md) and the pattern store's matching (spec/06_wake_patterns_and_wake_delivery.md). -/

namespace Sys2Proof.Machine

/-! ### Acceptance (R79 to R82) -/

/-- What acceptance decides (R78). -/
inductive Acceptance where
  | refused
  | ignored
  /-- Taken, with the untagged bytes. -/
  | taken (f : List Byte)
  deriving DecidableEq, Repr

/-- The destination test (R81). DEDUCED (log 19): a frame to the nonzero station address is taken whatever the state of the slot that it
concerns, as R81 gives, though R139 says that a matching frame after a RELEASE with announcement is not taken; the model reads R139's
words of the client address, for R94 and R87 say that a frame to the station address is taken but OTHER once its entry is QUIET. -/
def State.destTaken (s : State) (dest : LinkAddr) : Bool :=
  dest == broadcast
    || (s.settings.station != 0 && dest == s.settings.station)
    || s.anySlot (fun x => x.state.standsIn && x.client == some dest)
    || dest == allNodesLink
    || (List.finRange 96).any fun e =>
      match s.binding e with
      | some b =>
        match b.addr with
        | .v6 a => dest == solicitedLink a
        | .v4 _ => false
      | none => false

/-- The source test: a frame from the nonzero station address is ignored (R82). -/
def State.sourceTaken (s : State) (source : LinkAddr) : Bool :=
  !(s.settings.station != 0 && source == s.settings.station)

/-- The four acceptance tests in their order. `bytes` holds the check sequence as its last 4 bytes (R79 to R82). -/
def State.accept (s : State) (bytes : List Byte) (fcsGood : Bool) : Acceptance :=
  if fcsGood = false ∨ bytes.length < 64 ∨ 1522 < bytes.length then .refused
  else
    match tagTest s.settings.segment (bytes.take (bytes.length - 4)) with
    | none => .refused
    | some f =>
      if s.destTaken (destLink f) && s.sourceTaken (sourceLink f) then .taken f else .ignored

/-! ### Classification (R83 to R88) -/

/-- The class of a taken frame (R83). -/
inductive FrameClass where
  /-- V4 REQUEST, V4 REPLY, V6 SOLICIT or V6 ADVERT. -/
  | resolution (r : ResFrame)
  /-- A V6 neighbour message dropped for its checksum (R86). -/
  | dropped
  /-- UNICAST TO SLOT, for slot `n` (R87). -/
  | unicast (n : Fin 16)
  | other
  deriving DecidableEq, Repr

/-- The MIRRORED slot whose client address a frame is sent to (R87). -/
def State.mirroredSlot (s : State) (dest : LinkAddr) : Option (Fin 16) :=
  (List.finRange 16).find? fun n => (s.slot n).mode == some .mirrored && (s.slot n).client == some dest

/-- The OWN slot that a frame to the station address concerns: the owner of the held entry with the frame's destination protocol
address (R87). -/
def State.ownSlot (s : State) (f : List Byte) : Option (Fin 16) :=
  if destLink f = s.settings.station then
    match (destProtocol f).bind s.lookup with
    | some e =>
      match s.binding e with
      | some b => if b.claim.isHeld && (s.slot b.owner).mode == some .own then some b.owner else none
      | none => none
    | none => none
  else none

/-- The one slot that a UNICAST TO SLOT frame concerns (R87, R88). -/
def State.unicastSlot (s : State) (f : List Byte) : Option (Fin 16) :=
  if isGroup (destLink f) then none
  else
    match s.mirroredSlot (destLink f) with
    | some n => some n
    | none => s.ownSlot f

/-- The class of a taken frame (R83). -/
def State.classify (s : State) (f : List Byte) : FrameClass :=
  if isV4Resolution f then .resolution (readV4Resolution f)
  else if isV6Neighbour f then
    if checksumGood f then .resolution (readV6Neighbour f) else .dropped
  else
    match s.unicastSlot f with
    | some n => .unicast n
    | none => .other

/-! ### The claim step (R61 to R67, R89) -/

/-- An entry that goes LOST: timers, deadline and duty cleared; probes sent stays (R63, R65, R73). -/
def Binding.lose (b : Binding) : Binding :=
  { b with claim := .lost, probeDue := none, defenceDue := none, duty := none }

/-- Entry `e` of slot `n` goes LOST: CONFLICT is raised and a claim counted (R63, R65). -/
def State.loseEntry (s : State) (e : Fin 96) (n : Fin 16) : State :=
  ((s.modBinding e Binding.lose).raiseSlot n .conflict).countSlot n SlotCounters.countClaim

/-- A claim against a TENTATIVE entry; its slot is PROBING, so the loss policy starts no wake (R35, R38, R63). -/
def State.claimTentative (s : State) (e : Fin 96) (n : Fin 16) : State :=
  (s.loseEntry e n).endOfProbing n

/-- A first claim of use: HELD to DEFENDED, a deadline one defence window away, a DEFEND duty offered at once (R56, R64). -/
def State.firstClaim (s : State) (e : Fin 96) (n : Fin 16) : State :=
  let due := s.now + 1000 * s.settings.defenceWindow
  let s := (s.modBinding e fun b =>
    { b with claim := .defended, defenceDue := some due, duty := some .defend }).offerDuty e
  (s.raiseSlot n .defended).countSlot n SlotCounters.countClaim

/-- A second claim of use: DEFENDED to LOST, and the loss policy of a PROXYING slot (R38, R65). -/
def State.secondClaim (s : State) (e : Fin 96) (n : Fin 16) : State :=
  let s := s.loseEntry e n
  if (s.slot n).loss = .wake then s.wakeTrigger n .loss else s

/-- The claim step on entry `e` with binding `b`: the records after it, and whether the frame is evidence against the entry (R62). -/
def State.applyEvidence (s : State) (e : Fin 96) (b : Binding) (form : ClaimForm) : State × Bool :=
  match b.claim with
  | .quiet | .lost => (s, true)
  | .tentative => (s.claimTentative e b.owner, true)
  | .held =>
    if (s.slot b.owner).state.defends then
      match form with
      | .use => (s.firstClaim e b.owner, true)
      | .probe => (s, false)
    else (s, true)
  | .defended =>
    if (s.slot b.owner).state.defends then
      match form with
      | .use => (s.secondClaim e b.owner, true)
      | .probe => (s, false)
    else (s, true)

/-- The source link address is neither the client address of the entry's owner slot nor the nonzero station address (R61). -/
def State.foreignSource (s : State) (b : Binding) (source : LinkAddr) : Bool :=
  (s.slot b.owner).client != some source && !(s.settings.station != 0 && source == s.settings.station)

/-- The claim step of a resolution frame from link address `source`: the records after it, and the entry the frame is evidence
against, if any (R61, R62, R89). -/
def State.claimStep (s : State) (source : LinkAddr) (r : ResFrame) : State × Option (Fin 96) :=
  match r.claimed with
  | none => (s, none)
  | some (a, form) =>
    match s.lookup a with
    | none => (s, none)
    | some e =>
      match s.binding e with
      | none => (s, none)
      | some b =>
        if s.foreignSource b source then
          let (t, evidence) := s.applyEvidence e b form
          (t, if evidence then some e else none)
        else (s, none)

/-! ### The answer step (R90, R91) -/

/-- The entry that a request is answered for, against the records after the claim step (R90). -/
def State.answerEntry (s : State) (r : ResFrame) (evidence : Option (Fin 96)) : Option (Fin 96) :=
  match r.asked.bind s.lookup with
  | none => none
  | some e =>
    match s.binding e with
    | none => none
    | some b => if b.claim.isHeld && (s.slot b.owner).state.answers && evidence != some e then some e else none

/-- The answer step (R90, R91, R99). -/
def State.answerStep (s : State) (source : LinkAddr) (r : ResFrame) (evidence : Option (Fin 96)) : State :=
  match s.answerEntry r evidence with
  | none => s
  | some e =>
    match r.answer source e (s.entry e).gen with
    | some item => s.offerAnswer item
    | none => s

/-! ### The pattern store (R124 to R128) -/

/-- Pattern `p` is DEFINED and matches the frame (R124). -/
def State.patternHits (s : State) (f : List Byte) (p : Fin 32) : Bool :=
  (s.pattern p).definition.any (PatternDef.hits · f)

/-- The first pattern of the slot's list that matches (R125). -/
def State.walk (s : State) (n : Fin 16) (f : List Byte) : Option (Fin 32) :=
  (s.slot n).patterns.find? (s.patternHits f)

/-- The pattern store's act on a UNICAST TO SLOT frame (R126 to R128). -/
def State.matchFrame (s : State) (n : Fin 16) (f : List Byte) : State :=
  match (s.slot n).state with
  | .proxying =>
    match s.walk n f with
    | some p => (s.countSlot n SlotCounters.countMatch).wakeTrigger n (.pattern p)
    | none => s
  | .waking =>
    match s.walk n f with
    | some _ => s.countSlot n SlotCounters.countLate
    | none => s
  | .vacant | .staged | .armed | .probing | .dark | .releasing => s

/-! ### Dispatch (R89, R92) and the event -/

/-- A taken frame, already counted, classified and dispatched (R83, R86, R89, R92). -/
def State.dispatchFrame (s : State) (f : List Byte) : State :=
  match s.classify f with
  | .resolution r =>
    let (t, evidence) := s.claimStep (sourceLink f) r
    t.answerStep (sourceLink f) r evidence
  | .dropped => s.count DeviceCounters.countChecksum
  | .unicast n => s.matchFrame n f
  | .other => s

/-- FRAME_TAKEN on the records (R78 to R93). -/
def takeFrame (bytes : List Byte) (fcsGood : Bool) (s : State) : State :=
  match s.accept bytes fcsGood with
  | .refused => s.count DeviceCounters.countRefused
  | .ignored => s
  | .taken f => (s.count DeviceCounters.countTaken).dispatchFrame f

/-- FRAME_TAKEN (R78). -/
def execFrameTaken (bytes : List Byte) (fcsGood : Bool) (s : State) : Host.Outcome State Fault Refusal :=
  event (takeFrame bytes fcsGood) s

end Sys2Proof.Machine
end

