-- ==== Sys2Proof/Machine/Lines.lean ====
section
/-! DEFINITION. Machine/Lines.lean: POWER_ON and RESET_N_ASSERTED, the AWAKE_n filters' changes, link loss and link up. -/

namespace Sys2Proof.Machine

/-! ### Reset (R2, R29, R113, R157) -/

/-- The part at power-on: every record at its power-on value, each AWAKE_n filter at the level of its line, the link state at the
level of LINK; a CS_N that is already low is ignored until it rises (R29, R113, R157). -/
def powerOnState (awake : BitVec 16) (link csLow : Bool) : State :=
  { State.reset with
    lines := tabulate 16 fun n => { pin := awake.getLsbD n, taken := awake.getLsbD n }
    link := link
    port := { phase := if csLow then .ignoring else .idle } }

/-- POWER_ON: RESET_N is deasserted (R2, R13, R17, R24, R25, R29, R31, R97, R113, R140, R149, R157, R158). -/
def execPowerOn (awake : BitVec 16) (link csLow : Bool) (s : State) : Host.Outcome State Fault Refusal :=
  .next { powerOnState awake link csLow with pending := s.pending }

/-- RESET_N_ASSERTED: the transaction in progress is ended and the port ignores its pins; every set is empty, every mask flag
disabled and the mailbox IDLE, as at power-on (R146, R157; log 9). The lines and the link state are sampled at POWER_ON. -/
def execResetNAsserted (s : State) : Host.Outcome State Fault Refusal :=
  .next { State.reset with
    lines := s.lines
    link := s.link
    port := { phase := .ignoring }
    resetAsserted := true
    pending := s.pending }

/-! ### AWAKE_n (R28, R30) -/

/-- A filter's line after it takes a change to `level` (R28). A change that its samples have shown leaves the raw pin as it stands: a
raw move made after the third sample starts its own measurement with the next sample. DESIGN CHOICE (log 10): a change commanded
without its samples moves the pin to `level` as well, and one to the level already taken changes nothing of the line. -/
def Filter.take (level : Bool) (x : Filter) : Filter :=
  if x.taken = level then x
  else { pin := if Config.filterSamples ≤ x.shown then x.pin else level, taken := level, shown := 0 }

/-- The filter of slot `n` takes a change to `level` (R28). -/
def State.takeLevel (s : State) (n : Fin 16) (level : Bool) : State := s.setLine n ((s.line n).take level)

/-- A rise taken: a handback from PROBING, PROXYING, WAKING or DARK, and nothing but the taken level elsewhere (R30, R44). -/
def awakeRise (n : Fin 16) (s : State) : State :=
  let s := s.takeLevel n true
  if (s.slot n).state.standsIn then s.handback n else s

/-- AWAKE_RISES (R28, R30, R44, R45). -/
def execAwakeRises (n : Fin 16) (s : State) : Host.Outcome State Fault Refusal := event (awakeRise n) s

/-- A fall taken: the probing start from ARMED, and nothing but the taken level elsewhere (R30, R34). -/
def awakeFall (n : Fin 16) (s : State) : State :=
  let s := s.takeLevel n false
  if (s.slot n).state = .armed then s.probingStart n else s

/-- AWAKE_FALLS (R28, R30, R33, R34). -/
def execAwakeFalls (n : Fin 16) (s : State) : Host.Outcome State Fault Refusal := event (awakeFall n) s

/-! ### LINK (R113 to R116) -/

/-- The entries whose HANDBACK is discarded with the frame in transmission and the queue at link loss: those whose item carries
the entry's present generation (R52, R114). -/
def State.lostHandbacks (s : State) : List (Fin 96) :=
  let sent := (s.tx.toList.filter fun x => x.kind == .duty .handback && x.gen == (s.entry x.entry).gen).map (·.entry)
  let queued := (s.queue.filter fun i => i.kind == .duty .handback && i.gen == (s.entry i.entry).gen).map (·.entry)
  sent ++ queued

/-- The entries whose pending HANDBACK duty is discarded at link loss (R115). -/
def State.pendingHandbacks (s : State) : List (Fin 96) :=
  (List.finRange 96).filter fun e => s.duty e == some .handback

/-- An entry's probing and duty at link loss (R115). -/
def Binding.linkLoss (b : Binding) : Binding :=
  if b.claim = .tentative then
    { b with probesSent := 0, probeDue := none, duty := if b.duty = none then some .probe else b.duty }
  else if b.duty = some .defend ∨ b.duty = some .handback then { b with duty := none }
  else b

/-- Link loss (R114, R115). The discards of one event all leave the release handback set before the release ends (R52). -/
def linkFall (s : State) : State :=
  if s.link then
    let discarded := s.queue.length + s.tx.toList.length
    let reported := s.lostHandbacks ++ s.pendingHandbacks
    let s := { s with
      link := false
      queue := []
      tx := none
      entries := tabulate 96 fun e => (s.entry e).modBinding Binding.linkLoss
      counters := s.counters.countDiscards discarded }
    ((reported.foldl (State.leaveSet true) s).endReleaseIfDone).raiseDevice .linkDown
  else s

/-- LINK_LOSS (R113, R114, R115); while the link is down it changes nothing (R113). -/
def execLinkLoss (s : State) : Host.Outcome State Fault Refusal := event linkFall s

/-- Link up: the waiting duties are taken in entry-number order, and LINK_UP is raised; the transmitter's take of the head item
ends the event (R116). -/
def linkRise (s : State) : State :=
  if s.link then s else (State.offerAll { s with link := true }).raiseDevice .linkUp

/-- LINK_UP (R113, R116); while the link is up it changes nothing (R113). -/
def execLinkUp (s : State) : Host.Outcome State Fault Refusal := event linkRise s

end Sys2Proof.Machine
end

