-- ==== Sys2Proof/Machine/Mailbox.lean ====
section
/-! DEFINITION. Machine/Mailbox.lean: the window (R155, R195), and the writes that are no command: the command area, ignored writes,
ACK, ABORT, invalid control writes, a refused GO, and GO with an unknown code (spec/08_management_port_and_mailbox.md). -/

namespace Sys2Proof.Machine

/-! ### Reading the window (R144, R155, R195) -/

/-- The mailbox state byte (R195). -/
def MailboxState.code : MailboxState → Byte
  | .idle => 0x00#8
  | .executing _ => 0x01#8
  | .complete => 0x02#8

/-- The slot summary: bit n is set while slot n's attention set is not empty (R144, R195). -/
def State.slotSummary (s : State) : Nat :=
  (List.finRange 16).foldl (fun acc n => if (s.slot n).attention = 0 then acc else acc + 2 ^ n.val) 0

/-- The link and ATTN flags (R195). -/
def State.flagsByte (s : State) : Byte :=
  (if s.link then 0x01#8 else 0x00#8) ||| (if attnAsserted s then 0x02#8 else 0x00#8)

/-- The nine status bytes, offsets 00h to 08h, as they stand (R156, R195). -/
def State.statusBytes (s : State) : List Byte :=
  [Config.deviceCode, Config.revision, s.mailbox.state.code, s.mailbox.result, 0x00#8, s.flagsByte]
    ++ toBytesLE 2 s.slotSummary ++ [s.deviceAttention]

/-- The byte of the window at an offset, as it stands (R155, R195); 00h past FFh (R154). -/
def State.windowRead (s : State) (offset : Nat) : Byte :=
  if offset ≤ 0x08 then byteAt s.statusBytes offset
  else if 0x10 ≤ offset ∧ offset ≤ 0x4F then byteAt s.mailbox.command.toList (offset - 0x10)
  else if 0x50 ≤ offset ∧ offset ≤ 0x9F then byteAt s.mailbox.response.toList (offset - 0x50)
  else 0x00#8

/-! ### Writes -/

/-- The row of the table that a control write is (R159 to R163): GO in IDLE is the command that the command area spells. -/
def State.controlWriteCommand (s : State) (v : Byte) : Instr :=
  if v = 0x01#8 then
    match s.mailbox.state with
    | .idle => decodeCommand s.mailbox.command.toList
    | .executing _ => .goRefused
    | .complete => .goRefused
  else if v = 0x02#8 then .ack
  else if v = 0x04#8 then .abort
  else .invalidControlWrite v

/-- The row of the table that a data byte written at a window offset is (R155). -/
def State.windowWriteCommand (s : State) (offset v : Byte) : Instr :=
  if offset = controlOffset then s.controlWriteCommand v
  else if inCommandArea offset then .commandAreaWrite offset v
  else .windowWriteIgnored offset v

/-- A byte stored in the command area (R164). -/
def State.storeCommandByte (s : State) (offset v : Byte) : State :=
  { s with mailbox := { s.mailbox with
      command := tabulate 64 fun k => if k.val + 0x10 = offset.toNat then v else s.mailbox.command[k] } }

/-- A data byte written to the command area: stored in IDLE, ignored with MAILBOX_MISUSE otherwise (R164). An offset outside the
area is not this event (log 4). -/
def commandAreaByte (offset v : Byte) (s : State) : State :=
  if inCommandArea offset then
    match s.mailbox.state with
    | .idle => s.storeCommandByte offset v
    | .executing _ => s.misuse
    | .complete => s.misuse
  else s

/-- COMMAND_AREA_WRITE (R164). -/
def execCommandAreaWrite (offset value : Byte) (s : State) : Host.Outcome State Fault Refusal :=
  event (commandAreaByte offset value) s

/-- WINDOW_WRITE_IGNORED: the byte is ignored and no kind is raised (R155). -/
def execWindowWriteIgnored (_offset _value : Byte) (s : State) : Host.Outcome State Fault Refusal := event id s

/-- A control write of 02h (R161). -/
def acknowledge (s : State) : State :=
  match s.mailbox.state with
  | .complete => { s with mailbox := { s.mailbox with state := .idle } }
  | .idle => s.misuse
  | .executing _ => s.misuse

/-- ACK (R161). -/
def execAck (s : State) : Host.Outcome State Fault Refusal := event acknowledge s

/-- A control write of 04h: it ends the release in progress with ABORTED; its handback set and discard mark are dropped (R53, R162,
R187). -/
def abortRelease (s : State) : State :=
  match s.mailbox.state with
  | .executing r => s.finishRelease r.slot .aborted
  | .idle => s.misuse
  | .complete => s.misuse

/-- ABORT (R162). -/
def execAbort (s : State) : Host.Outcome State Fault Refusal := event abortRelease s

/-- A control write of another value (R163). The three values that mean something are not this event (log 4). -/
def invalidControl (v : Byte) (s : State) : State := if isControlValue v then s else s.misuse

/-- INVALID_CONTROL_WRITE (R163). -/
def execInvalidControlWrite (value : Byte) (s : State) : Host.Outcome State Fault Refusal :=
  event (invalidControl value) s

/-- A refused GO (R159); a GO in IDLE is never refused, so it is not this event (log 4). -/
def refuseGo (s : State) : State :=
  match s.mailbox.state with
  | .idle => s
  | .executing _ => s.misuse
  | .complete => s.misuse

/-- GO_REFUSED (R159). -/
def execGoRefused (s : State) : Host.Outcome State Fault Refusal := event refuseGo s

/-- GO with a code that is not a command (R168); a command's code is not this event (log 4). -/
def unknownGo (code : Byte) (s : State) : State :=
  if isCommandCode code then s else runCommand (.unknownCommand code) (fun _ => .refuse .unknownCommand) s

/-- UNKNOWN_COMMAND (R168). -/
def execUnknownCommand (code : Byte) (s : State) : Host.Outcome State Fault Refusal := event (unknownGo code) s

end Sys2Proof.Machine
end

