-- ==== Sys2Proof/Machine/Patterns.lean ====
section
/-! DEFINITION. Machine/Patterns.lean: writing, clearing and reading patterns (spec/09_command_reference.md, 9.8, and
spec/06_wake_patterns_and_wake_delivery.md, 6.1). -/

namespace Sys2Proof.Machine

/-- The flags of the first `length` positions of a mask (R120). -/
def keptMask (length : Nat) (mask : BitVec 32) : BitVec 32 := mask &&& BitVec.ofNat 32 (2 ^ length - 1)

/-- The definition that an accepted write stores: flags beyond the length ignored, value bytes beyond it 00h (R120). -/
def storedDef (offset length : Nat) (mask : BitVec 32) (value : Vector Byte 32) : PatternDef :=
  { offset := offset
    length := length
    mask := keptMask length mask
    value := tabulate 32 fun i => if i.val < length then value[i] else 0x00#8 }

/-- The ranges of a definition (R120). -/
def patternInRange (offset length : Nat) (mask : BitVec 32) : Bool :=
  decide (offset ≤ 191) && decide (1 ≤ length) && decide (length ≤ 32) && keptMask length mask != 0

/-- WRITE_PATTERN (R120, R192). -/
def writePatternBody (pattern offset length : Byte) (mask : BitVec 32) (value : Vector Byte 32) (s : State) : Reply :=
  match patternArg pattern with
  | none => .refuse .badParameter
  | some p =>
    if patternInRange offset.toNat length.toNat mask = false then .refuse .badParameter
    else if (s.pattern p).refs ≠ 0 then .refuse .inUse
    else .done [] (s.setPattern p
      { s.pattern p with definition := some (storedDef offset.toNat length.toNat mask value) })

def execWritePattern (pattern offset length : Byte) (mask : BitVec 32) (value : Vector Byte 32) (s : State) :
    Host.Outcome State Fault Refusal :=
  event (runCommand (.writePattern pattern offset length mask value)
    (writePatternBody pattern offset length mask value)) s

/-- CLEAR_PATTERN (R121, R193). -/
def clearPatternBody (pattern : Byte) (s : State) : Reply :=
  match patternArg pattern with
  | none => .refuse .badParameter
  | some p =>
    if (s.pattern p).refs ≠ 0 then .refuse .inUse
    else .done [] (s.setPattern p { s.pattern p with definition := none })

def execClearPattern (pattern : Byte) (s : State) : Host.Outcome State Fault Refusal :=
  event (runCommand (.clearPattern pattern) (clearPatternBody pattern)) s

/-- The pattern state codes (R198). -/
def emptyCode : Byte := 0x01#8
def definedCode : Byte := 0x02#8

/-- The READ_PATTERN response data (R121, R194, R202). -/
def patternData (x : Pattern) : List Byte :=
  match x.definition with
  | none => [emptyCode, countByte x.refs] ++ List.replicate 38 0x00#8
  | some d =>
    [definedCode, countByte x.refs, countByte d.offset, countByte d.length] ++ toBytesLE 4 d.mask.toNat ++ d.value.toList

/-- READ_PATTERN (R121, R194). -/
def readPatternBody (pattern : Byte) (s : State) : Reply :=
  match patternArg pattern with
  | none => .refuse .badParameter
  | some p => .done (patternData (s.pattern p)) s

def execReadPattern (pattern : Byte) (s : State) : Host.Outcome State Fault Refusal :=
  event (runCommand (.readPattern pattern) (readPatternBody pattern)) s

end Sys2Proof.Machine
end

