-- ==== Sys2Proof/Machine/Reads.lean ====
section
/-! DEFINITION. Machine/Reads.lean: reading slots, entries, the index and the attention sets (spec/09_command_reference.md, 9.7). -/

namespace Sys2Proof.Machine

/-- The time left on a timer or deadline: 0 when stopped or absent, and at least 1 while running (R169, R209). -/
def remaining (now : Nat) (due : Option Nat) : Nat :=
  match due with
  | none => 0
  | some d => max 1 (d - now)

/-- A list of numbers in `places` bytes; places beyond the list read 0 (R188, R202). -/
def listBytes (places : Nat) (l : List Nat) : List Byte :=
  (List.range places).map fun i => countByte (l.getD i 0)

/-- The five slot counters, 2 bytes each (R202). -/
def SlotCounters.bytes (c : SlotCounters) : List Byte :=
  toBytesLE 2 c.answersSent.toNat ++ toBytesLE 2 c.wakeMatches.toNat ++ toBytesLE 2 c.lateMatches.toNat
    ++ toBytesLE 2 c.claimsSeen.toNat ++ toBytesLE 2 c.wakePulses.toNat

/-- The READ_SLOT response data (R188, R202). -/
def slotData (now : Nat) (taken : Bool) (x : Slot) : List Byte :=
  [x.state.code, flagByte taken, flagByte x.wakeLine]
    ++ linkBytes (x.client.getD 0)
    ++ [(x.mode.map AnswerMode.code).getD 0x00#8]
    ++ [countByte x.addresses.length] ++ listBytes 8 (x.addresses.map (·.val))
    ++ [countByte x.patterns.length] ++ listBytes 4 (x.patterns.map (·.val))
    ++ [x.loss.code, flagByte x.autoRearm, countByte x.pulseWidth] ++ toBytesLE 2 x.wakeTimeout
    ++ [countByte x.wakeRetries, countByte x.attempts, (x.cause.map WakeCause.code).getD 0x00#8,
        (x.cause.map WakeCause.patternNumber).getD 0x00#8]
    ++ toBytesLE 2 (remaining now x.pulseDue) ++ toBytesLE 2 (remaining now x.timeoutDue)
    ++ x.counters.bytes

/-- READ_SLOT: a clear comes after the copy, in the same event (R149, R188). -/
def readSlotBody (slot clear : Byte) (s : State) : Reply :=
  match slotArg slot, flagArg clear with
  | some n, some c =>
    .done (slotData s.now (s.line n).taken (s.slot n)) (if c then s.modSlot n fun x => { x with counters := {} } else s)
  | none, _ => .refuse .badParameter
  | some _, none => .refuse .badParameter

def execReadSlot (slot clear : Byte) (s : State) : Host.Outcome State Fault Refusal :=
  event (runCommand (.readSlot slot clear) (readSlotBody slot clear)) s

/-- The READ_ENTRY response data (R189, R202). -/
def entryData (now : Nat) (e : Fin 96) (x : Entry) : List Byte :=
  match x.binding with
  | none => [countByte e.val, freeCode, x.gen] ++ List.replicate 24 0x00#8
  | some b =>
    [countByte e.val, b.claim.code, x.gen, countByte b.owner.val, b.addr.familyCode] ++ b.addr.responseBytes
      ++ [countByte b.probesSent] ++ toBytesLE 2 (remaining now b.probeDue) ++ toBytesLE 2 (remaining now b.defenceDue)
      ++ [(b.duty.map Duty.code).getD 0x00#8]

/-- READ_ENTRY (R189). -/
def readEntryBody (entry : Byte) (s : State) : Reply :=
  match entryArg entry with
  | none => .refuse .badParameter
  | some e => .done (entryData s.now e (s.entry e)) s

def execReadEntry (entry : Byte) (s : State) : Host.Outcome State Fault Refusal :=
  event (runCommand (.readEntry entry) (readEntryBody entry)) s

/-- LOOKUP (R19, R190). The data is the entry number, its owner slot and its claim state. -/
def lookupBody (family : Byte) (address : BitVec 128) (s : State) : Reply :=
  match addrArg family address with
  | none => .refuse .badParameter
  | some a =>
    match s.lookup a with
    | none => .refuse .notFound
    | some e =>
      match s.binding e with
      | none => .refuse .notFound
      | some b => .done [countByte e.val, countByte b.owner.val, b.claim.code] s

def execLookup (family : Byte) (address : BitVec 128) (s : State) : Host.Outcome State Fault Refusal :=
  event (runCommand (.lookup family address) (lookupBody family address)) s

/-- READ_ATTENTION: the named set is copied and emptied (R143, R191). -/
def readAttentionBody (which : Byte) (s : State) : Reply :=
  if which = 0xFF#8 then .done [s.deviceAttention] { s with deviceAttention := 0 }
  else
    match slotArg which with
    | none => .refuse .badParameter
    | some n => .done [(s.slot n).attention] (s.modSlot n fun x => { x with attention := 0 })

def execReadAttention (which : Byte) (s : State) : Host.Outcome State Fault Refusal :=
  event (runCommand (.readAttention which) (readAttentionBody which)) s

end Sys2Proof.Machine
end

