-- ==== Sys2Proof/Machine/Settings.lean ====
section
/-! DEFINITION. Machine/Settings.lean: the device settings, the device read and the device reset (spec/09_command_reference.md, 9.2
and 9.3). Each body makes its checks in the order of its rule (R168). -/

namespace Sys2Proof.Machine

/-- The slot is OWN-mode. -/
def Slot.isOwn (x : Slot) : Bool := x.mode == some .own

/-- OWN-mode and PROBING, PROXYING, WAKING, DARK or RELEASING (R170, check 2). -/
def Slot.usesStation (x : Slot) : Bool := x.isOwn && (x.state.standsIn || x.state == .releasing)

/-- SET_STATION (R26, R170). -/
def setStationBody (a : LinkAddr) (s : State) : Reply :=
  if isGroup a then .refuse .badParameter
  else if s.anySlot Slot.usesStation then .refuse .wrongState
  else if a = 0 ∧ s.anySlot (fun x => x.isOwn && x.state == .armed) then .refuse .wrongState
  else if a ≠ 0 ∧ s.anySlot (fun x => x.client == some a) then .refuse .duplicateHost
  else .done [] { s with settings := { s.settings with station := a } }

def execSetStation (addr : LinkAddr) (s : State) : Host.Outcome State Fault Refusal :=
  event (runCommand (.setStation addr) (setStationBody addr)) s

/-- SET_SEGMENT (R27, R171). -/
def setSegmentBody (tag : BitVec 16) (s : State) : Reply :=
  if 4095 ≤ tag.toNat then .refuse .badParameter
  else if s.anySlot (fun x => !(x.state == .vacant || x.state == .staged)) then .refuse .wrongState
  else .done [] { s with settings := { s.settings with segment := tag.setWidth 12 } }

def execSetSegment (tag : BitVec 16) (s : State) : Host.Outcome State Fault Refusal :=
  event (runCommand (.setSegment tag) (setSegmentBody tag)) s

/-- The ranges of the three timing settings (R25, R172). -/
def timingInRange (count interval window : Nat) : Bool :=
  decide (1 ≤ count) && decide (count ≤ 7)
    && decide (interval % 10 = 0) && decide (100 ≤ interval) && decide (interval ≤ 2550)
    && decide (1 ≤ window) && decide (window ≤ 60)

/-- Probes sent trimmed to a new probe count (R172). -/
def Binding.trimProbes (count : Nat) (b : Binding) : Binding := { b with probesSent := min b.probesSent count }

/-- SET_TIMING (R27, R172). -/
def setTimingBody (count : Byte) (interval : BitVec 16) (window : Byte) (s : State) : Reply :=
  if timingInRange count.toNat interval.toNat window.toNat = false then .refuse .badParameter
  else if s.anySlot (fun x => x.state == .probing) then .refuse .wrongState
  else .done [] { s with
    settings := { s.settings with
      probeCount := count.toNat, probeInterval := interval.toNat, defenceWindow := window.toNat }
    entries := tabulate 96 fun e => (s.entry e).modBinding (Binding.trimProbes count.toNat) }

def execSetTiming (count : Byte) (interval : BitVec 16) (window : Byte) (s : State) :
    Host.Outcome State Fault Refusal :=
  event (runCommand (.setTiming count interval window) (setTimingBody count interval window)) s

/-- SET_ATTENTION_MASK (R145, R173). -/
def setAttentionMaskBody (slotMask deviceMask enable : Byte) (s : State) : Reply :=
  if slotMask &&& ~~~slotKindPlaces ≠ 0 ∨ deviceMask &&& ~~~deviceKindPlaces ≠ 0 then .refuse .badParameter
  else
    match flagArg enable with
    | none => .refuse .badParameter
    | some on => .done [] { s with
        settings := { s.settings with slotMask := slotMask, deviceMask := deviceMask, completionEnable := on } }

def execSetAttentionMask (slotMask deviceMask enable : Byte) (s : State) : Host.Outcome State Fault Refusal :=
  event (runCommand (.setAttentionMask slotMask deviceMask enable)
    (setAttentionMaskBody slotMask deviceMask enable)) s

/-- The number of FREE entries (R174). -/
def State.freeCount (s : State) : Nat := ((List.finRange 96).filter fun e => (s.binding e).isNone).length

/-- The number of EMPTY patterns (R174). -/
def State.emptyPatterns (s : State) : Nat :=
  ((List.finRange 32).filter fun p => (s.pattern p).definition.isNone).length

/-- The seven device counters, 4 bytes each, in the order of R202. -/
def DeviceCounters.bytes (c : DeviceCounters) : List Byte :=
  toBytesLE 4 c.framesTaken.toNat ++ toBytesLE 4 c.framesRefused.toNat ++ toBytesLE 4 c.checksumFailures.toNat
    ++ toBytesLE 4 c.answersTransmitted.toNat ++ toBytesLE 4 c.answersDropped.toNat
    ++ toBytesLE 4 c.itemsDiscarded.toNat ++ toBytesLE 4 c.dutiesTransmitted.toNat

/-- The READ_DEVICE response data (R174, R202). -/
def State.deviceData (s : State) : List Byte :=
  linkBytes s.settings.station ++ toBytesLE 2 s.settings.segment.toNat
    ++ [countByte s.settings.probeCount] ++ toBytesLE 2 s.settings.probeInterval
    ++ [countByte s.settings.defenceWindow, s.settings.slotMask, s.settings.deviceMask,
        flagByte s.settings.completionEnable, flagByte s.link, countByte s.freeCount, countByte s.emptyPatterns,
        countByte s.queue.length, flagByte s.tx.isSome]
    ++ s.counters.bytes

/-- READ_DEVICE: a clear comes after the copy, in the same event (R149, R174). -/
def readDeviceBody (clear : Byte) (s : State) : Reply :=
  match flagArg clear with
  | none => .refuse .badParameter
  | some c => .done s.deviceData (if c then { s with counters := {} } else s)

def execReadDevice (clear : Byte) (s : State) : Host.Outcome State Fault Refusal :=
  event (runCommand (.readDevice clear) (readDeviceBody clear)) s

/-- The records after DEVICE_RESET: slots, entries, index, patterns, queue, transmitter, attention sets and counters are reset; the
filters, the link state, the settings, the mailbox, the port and the count are kept (R97, R175, R209). A frame in transmission
ends at once with a bad check sequence. -/
def State.deviceReset (s : State) : State :=
  { s with
    slots := Vector.replicate 16 {}
    entries := tabulate 96 fun e => (s.entry e).free
    index := Vector.replicate 64 (Vector.replicate 4 none)
    patterns := Vector.replicate 32 {}
    deviceAttention := 0
    counters := {}
    queue := []
    tx := none
    lastEnded := match s.tx with
      | some x => some { frame := x.frame, checkGood := false }
      | none => s.lastEnded }

/-- DEVICE_RESET (R175). -/
def deviceResetBody (s : State) : Reply := .done [] s.deviceReset

def execDeviceReset (s : State) : Host.Outcome State Fault Refusal :=
  event (runCommand .deviceReset deviceResetBody) s

end Sys2Proof.Machine
end

