-- ==== Sys2Proof/Machine/SlotSetup.lean ====
section
/-! DEFINITION. Machine/SlotSetup.lean: opening a slot, its policy, its addresses and its patterns (spec/09_command_reference.md, 9.4).
Each body makes its checks in the order of its rule (R168). -/

namespace Sys2Proof.Machine

/-- OPEN_SLOT (R2, R3, R176). -/
def openSlotBody (slot : Byte) (client : LinkAddr) (mode : Byte) (s : State) : Reply :=
  match slotArg slot, modeArg mode with
  | some n, some m =>
    if client = 0 ∨ isGroup client then .refuse .badParameter
    else if (s.slot n).state ≠ .vacant then .refuse .wrongState
    else if s.anySlot (fun x => x.client == some client)
        ∨ (s.settings.station ≠ 0 ∧ client = s.settings.station) then .refuse .duplicateHost
    else if m = .own ∧ s.settings.station = 0 then .refuse .noStation
    else .done [] (s.modSlot n fun x =>
      { x with
        state := .staged, client := some client, mode := some m
        loss := .notify, autoRearm := false, pulseWidth := Config.vacantPulseWidth
        wakeTimeout := Config.vacantWakeTimeout, wakeRetries := Config.vacantWakeRetries, counters := {} })
  | none, _ => .refuse .badParameter
  | some _, none => .refuse .badParameter

def execOpenSlot (slot : Byte) (client : LinkAddr) (mode : Byte) (s : State) : Host.Outcome State Fault Refusal :=
  event (runCommand (.openSlot slot client mode) (openSlotBody slot client mode)) s

/-- The policy conditions of R7. -/
def policyInRange (pulse timeout retries : Nat) : Bool :=
  decide (1 ≤ pulse) && decide (timeout % 100 = 0) && decide (100 ≤ timeout) && decide (timeout ≤ 25500)
    && decide (pulse < timeout) && decide (retries ≤ 7)

/-- SET_SLOT_POLICY (R7, R177). -/
def setSlotPolicyBody (slot loss rearm pulse : Byte) (timeout : BitVec 16) (retries : Byte) (s : State) : Reply :=
  match slotArg slot, lossArg loss, flagArg rearm with
  | some n, some l, some a =>
    if policyInRange pulse.toNat timeout.toNat retries.toNat = false then .refuse .badParameter
    else if (s.slot n).state ≠ .staged then .refuse .wrongState
    else .done [] (s.modSlot n fun x =>
      { x with
        loss := l, autoRearm := a, pulseWidth := pulse.toNat, wakeTimeout := timeout.toNat
        wakeRetries := retries.toNat })
  | none, _, _ => .refuse .badParameter
  | some _, none, _ => .refuse .badParameter
  | some _, some _, none => .refuse .badParameter

def execSetSlotPolicy (slot loss rearm pulse : Byte) (timeout : BitVec 16) (retries : Byte) (s : State) :
    Host.Outcome State Fault Refusal :=
  event (runCommand (.setSlotPolicy slot loss rearm pulse timeout retries)
    (setSlotPolicyBody slot loss rearm pulse timeout retries)) s

/-- The insertion's three checks and its effect, for a STAGED slot with room in its list (R20). The data is the entry number and
its generation (R178). -/
def State.insertion (s : State) (n : Fin 16) (a : Addr) : Reply :=
  match s.lowestFree with
  | none => .refuse .noRoom
  | some e =>
    if (s.lookup a).isSome then .refuse .duplicateAddress
    else
      match s.lowestWay (bucketOf a) with
      | none => .refuse .bucketFull
      | some w => .done [countByte e.val, (s.entry e).gen] (s.insert n a e w)

/-- ADD_ADDRESS (R20, R178). -/
def addAddressBody (slot family : Byte) (address : BitVec 128) (s : State) : Reply :=
  match slotArg slot, addrArg family address with
  | some n, some a =>
    if (s.slot n).state ≠ .staged then .refuse .wrongState
    else if Config.addressListLimit ≤ (s.slot n).addresses.length then .refuse .slotFull
    else s.insertion n a
  | none, _ => .refuse .badParameter
  | some _, none => .refuse .badParameter

def execAddAddress (slot family : Byte) (address : BitVec 128) (s : State) : Host.Outcome State Fault Refusal :=
  event (runCommand (.addAddress slot family address) (addAddressBody slot family address)) s

/-- REMOVE_ADDRESS (R16, R179). The data is the entry number and its new generation. -/
def removeAddressBody (entry : Byte) (s : State) : Reply :=
  match entryArg entry with
  | none => .refuse .badParameter
  | some e =>
    match s.binding e with
    | none => .refuse .notFound
    | some b =>
      if (s.slot b.owner).state ≠ .staged then .refuse .wrongState
      else
        let t := s.freeEntries [e]
        .done [countByte e.val, (t.entry e).gen] t

def execRemoveAddress (entry : Byte) (s : State) : Host.Outcome State Fault Refusal :=
  event (runCommand (.removeAddress entry) (removeAddressBody entry)) s

/-- ATTACH_PATTERN (R6, R122, R180). The data is the new reference count. -/
def attachPatternBody (slot pattern : Byte) (s : State) : Reply :=
  match slotArg slot, patternArg pattern with
  | some n, some p =>
    if p ∈ (s.slot n).patterns then .refuse .badParameter
    else if (s.slot n).state ≠ .staged then .refuse .wrongState
    else if (s.pattern p).definition.isNone then .refuse .notFound
    else if Config.patternListLimit ≤ (s.slot n).patterns.length then .refuse .slotFull
    else
      let refs := (s.pattern p).refs + 1
      .done [countByte refs]
        ((s.setPattern p { s.pattern p with refs := refs }).modSlot n fun x => { x with patterns := x.patterns ++ [p] })
  | none, _ => .refuse .badParameter
  | some _, none => .refuse .badParameter

def execAttachPattern (slot pattern : Byte) (s : State) : Host.Outcome State Fault Refusal :=
  event (runCommand (.attachPattern slot pattern) (attachPatternBody slot pattern)) s

/-- DETACH_PATTERN (R6, R123, R181). The data is the new reference count. -/
def detachPatternBody (slot pattern : Byte) (s : State) : Reply :=
  match slotArg slot, patternArg pattern with
  | some n, some p =>
    if (s.slot n).state ≠ .staged then .refuse .wrongState
    else if p ∉ (s.slot n).patterns then .refuse .notFound
    else
      let refs := (s.pattern p).refs - 1
      .done [countByte refs]
        ((s.setPattern p { s.pattern p with refs := refs }).modSlot n fun x => { x with patterns := x.patterns.erase p })
  | none, _ => .refuse .badParameter
  | some _, none => .refuse .badParameter

def execDetachPattern (slot pattern : Byte) (s : State) : Host.Outcome State Fault Refusal :=
  event (runCommand (.detachPattern slot pattern) (detachPatternBody slot pattern)) s

end Sys2Proof.Machine
end

