-- ==== Sys2Proof/Machine/Timers.lean ====
section
/-! DEFINITION. Machine/Timers.lean: the count of the time base (R209), the AWAKE_n filters' samples (R28), and the four expiries.

An expiry of a timer that is stopped is no event: "A timer that is stopped has no expiry to come" (R130; log 4). An expiry is taken in
the count in which it is due (R209). The time base reaches that count by the steps on an empty queue (`tick`), or, when the expiry is
commanded before it, by `advance`, which passes the same counts and takes the same events in them (log 5). -/

namespace Sys2Proof.Machine

/-! ### What each expiry does -/

/-- The end of a final wait: HELD, the timer stopped, and in OWN mode an ANNOUNCE duty (R59). -/
def Binding.endFinalWait (m : Option AnswerMode) (b : Binding) : Binding :=
  { b with claim := .held, probeDue := none, duty := if m = some .own then some .announce else b.duty }

/-- The probe timer of a TENTATIVE entry (R58). -/
def State.probeTimer (e : Fin 96) (s : State) : Option Nat :=
  (s.binding e).bind fun b => if b.claim = .tentative then b.probeDue else none

/-- A probe timer expiry at entry `e` (R59). -/
def State.probeExpired (e : Fin 96) (s : State) : State :=
  match s.binding e with
  | none => s
  | some b =>
    if b.probesSent < s.settings.probeCount then
      (s.modBinding e fun b => { b with probeDue := none, duty := some .probe }).offerDuty e
    else
      ((s.modBinding e (Binding.endFinalWait (s.slot b.owner).mode)).offerDuty e).endOfProbing b.owner

/-- The defence deadline of a DEFENDED entry (R64). -/
def State.defenceDeadline (e : Fin 96) (s : State) : Option Nat :=
  (s.binding e).bind fun b => if b.claim = .defended then b.defenceDue else none

/-- A defence deadline reached at entry `e` (R68). -/
def State.defenceEnded (e : Fin 96) (s : State) : State := s.modBinding e Binding.endDefence

/-- The pulse timer of a slot (R130). -/
def State.pulseTimer (n : Fin 16) (s : State) : Option Nat := (s.slot n).pulseDue

/-- The pulse timer of a slot expires: WAKE_n is deasserted and the timer left stopped (R132). -/
def State.pulseExpired (n : Fin 16) (s : State) : State :=
  s.modSlot n fun x => { x with wakeLine := false, pulseDue := none }

/-- The timeout timer of a WAKING slot (R130). -/
def State.timeoutTimer (n : Fin 16) (s : State) : Option Nat :=
  if (s.slot n).state = .waking then (s.slot n).timeoutDue else none

/-- A wake timeout expires in a WAKING slot: a further attempt, or DARK (R41, R133). The pulse of the attempt has ended before it
(R132); records that say otherwise go on with the timers that the attempt starts, or that DARK stops (log 15). -/
def State.timeoutExpired (n : Fin 16) (s : State) : State :=
  if (s.slot n).attempts < (s.slot n).wakeRetries + 1 then
    s.modSlot n fun x => Slot.beginAttempt s.now false { x with attempts := x.attempts + 1 }
  else s.enterDark n

/-- The timer that `timer` reads expires, as `act`, in a count in which it is due; otherwise it has no expiry now (R130, R209). -/
def expire (timer : State → Option Nat) (act : State → State) (s : State) : State :=
  match timer s with
  | none => s
  | some due => if due ≤ s.now then act s else s

/-! ### Samples (R28) -/

/-- A filter after `k` samples of its raw line, one in each count, `k` at least 1 (R28). -/
def Filter.sample (k : Nat) (x : Filter) : Filter :=
  { x with shown := if x.pin = x.taken then 0 else x.shown + k }

/-- The filter's samples have shown a change (R28). -/
def Filter.complete (x : Filter) : Bool := decide (Config.filterSamples ≤ x.shown)

/-- The change that a filter takes in this count (R28). -/
def Filter.change (n : Fin 16) (x : Filter) : Option Instr :=
  if x.complete then some (if x.pin then .awakeRises n else .awakeFalls n) else none

/-- `k` counts of the time base, `k` at least 1: the count and the filters' samples, and nothing taken (R28, R209). -/
def State.passCounts (s : State) (k : Nat) : State :=
  { s with now := s.now + k, lines := tabulate 16 fun n => (s.line n).sample k }

/-! ### The events of one count (R28, R209) -/

/-- `x` placed in a list ordered by `key`, before the first element of a larger key. -/
def placeByKey {α : Type} (x : Nat × α) : List (Nat × α) → List (Nat × α)
  | [] => [x]
  | y :: rest => if x.1 < y.1 then x :: y :: rest else y :: placeByKey x rest

/-- Events of one count in the free order of Config.expiryOrder, whose keys are those of the places from `first` on (R209: either
order; log 7). -/
def arrange {α : Type} (now first : Nat) (events : List α) : List α :=
  (((events.zipIdx first).map fun p => (Config.expiryOrder now p.2, p.1)).foldl (fun l x => placeByKey x l) []).map (·.2)

/-- A timer or deadline that has run out by count `now` (R209). -/
def isDue (now : Nat) (due : Option Nat) : Bool := due.any fun d => decide (d ≤ now)

/-- The events due in the present count: the filters' changes and the expiries, in a free order (R28, R209; log 7). DESIGN CHOICE
(log 7): the pulse expiries, in a free order among themselves, stand before the others, so that WAKE_n is deasserted before a timeout of
the same count ends the attempt, as R132 says of every attempt; a pulse expiry changes nothing that another event of its count reads. -/
def State.dueEvents (s : State) : List Instr :=
  let pulses := ((List.finRange 16).filter fun n => isDue s.now (s.slot n).pulseDue).map Instr.pulseTimerExpiry
  arrange s.now 0 pulses
    ++ arrange s.now pulses.length
      ((List.finRange 16).filterMap (fun n => Filter.change n (s.line n))
        ++ ((List.finRange 16).filter fun n => isDue s.now (s.slot n).timeoutDue).map Instr.wakeTimeoutExpiry
        ++ ((List.finRange 96).filter fun e => isDue s.now ((s.binding e).bind (·.probeDue))).map Instr.probeTimerExpiry
        ++ ((List.finRange 96).filter fun e => isDue s.now ((s.binding e).bind (·.defenceDue))).map
            Instr.defenceDeadlineReached)

/-- What an event of the present count does; a command that no count brings does nothing here. -/
def dueAction (i : Instr) (s : State) : State :=
  match i with
  | .awakeRises n => awakeRise n s
  | .awakeFalls n => awakeFall n s
  | .pulseTimerExpiry n => expire (State.pulseTimer n) (State.pulseExpired n) s
  | .wakeTimeoutExpiry n => expire (State.timeoutTimer n) (State.timeoutExpired n) s
  | .probeTimerExpiry e => expire (State.probeTimer e) (State.probeExpired e) s
  | .defenceDeadlineReached e => expire (State.defenceDeadline e) (State.defenceEnded e) s
  | _ => s

/-- An event of the present count is taken whole (R130). -/
def State.takeDue (s : State) (i : Instr) : State := (dueAction i s).serve

/-- The next count, with everything that is due in it taken (R28, R209). -/
def State.oneCount (s : State) : State :=
  (s.passCounts 1).dueEvents.foldl State.takeDue (s.passCounts 1)

/-! ### Time up to a later count (log 5) -/

/-- The counts in which something falls due as the records stand (R28, R209). -/
def State.dueCounts (s : State) : List Nat :=
  (List.finRange 16).filterMap (fun n =>
      if (s.line n).pin = (s.line n).taken then none else some (s.now + (Config.filterSamples - (s.line n).shown)))
    ++ (List.finRange 16).filterMap (fun n => (s.slot n).pulseDue)
    ++ (List.finRange 16).filterMap (fun n => (s.slot n).timeoutDue)
    ++ (List.finRange 96).filterMap (fun e => (s.binding e).bind (·.probeDue))
    ++ (List.finRange 96).filterMap (fun e => (s.binding e).bind (·.defenceDue))

/-- How many of the next counts, before count `d`, bring no event. -/
def State.quietCounts (s : State) (d : Nat) : Nat :=
  s.dueCounts.foldl (fun k due => min k (due - s.now - 1)) (d - s.now - 1)

/-- The counts that bring no event, passed at once. -/
def State.skipQuiet (s : State) (d : Nat) : State :=
  if s.quietCounts d = 0 then s else s.passCounts (s.quietCounts d)

/-- Time passes up to count `d`, at most `k` counts that bring an event. -/
def advanceWithin : Nat → Nat → State → State
  | 0, _, s => s
  | k + 1, d, s => if d ≤ s.now then s else advanceWithin k d (s.skipQuiet d).oneCount

/-- Time passes up to count `d`: every count up to it, and `d` itself, with everything that falls due there taken (R28, R209). Counts
that bring no event are passed at once; Laws/Timers.lean proves that this is `oneCount` repeated. -/
def State.advance (s : State) (d : Nat) : State := advanceWithin (d - s.now) d s

/-! ### The four expiries -/

/-- An expiry of the timer that `timer` reads: `act` in a count in which it is due. DESIGN CHOICE (log 5): commanded before that count,
it is taken there, so time passes up to the count as steps on an empty queue pass it, with every other event taken in its own count
(R209); if one of them stops the timer, its expiry does not come (R130). The expiry is that of the timer as it runs when the command is
given: one that an event of the same count has already started again is due in a later count, and time passes on to that. -/
def expiry (timer : State → Option Nat) (act : State → State) (s : State) : State :=
  match timer s with
  | none => s
  | some due => if due ≤ s.now then act s else s.advance due

/-- PROBE_TIMER_EXPIRY (R59). -/
def execProbeTimerExpiry (e : Fin 96) (s : State) : Host.Outcome State Fault Refusal :=
  event (expiry (State.probeTimer e) (State.probeExpired e)) s

/-- DEFENCE_DEADLINE_REACHED (R68). -/
def execDefenceDeadlineReached (e : Fin 96) (s : State) : Host.Outcome State Fault Refusal :=
  event (expiry (State.defenceDeadline e) (State.defenceEnded e)) s

/-- PULSE_TIMER_EXPIRY (R132). -/
def execPulseTimerExpiry (n : Fin 16) (s : State) : Host.Outcome State Fault Refusal :=
  event (expiry (State.pulseTimer n) (State.pulseExpired n)) s

/-- WAKE_TIMEOUT_EXPIRY (R41, R42, R131, R133). -/
def execWakeTimeoutExpiry (n : Fin 16) (s : State) : Host.Outcome State Fault Refusal :=
  event (expiry (State.timeoutTimer n) (State.timeoutExpired n)) s

/-! ### One count of the time base on an idle part -/

/-- One count of the time base on an idle part: the count advances, the filters sample their lines, and what is due waits to be
taken, in the order of `dueEvents` (R28, R209; log 6, log 7). While RESET_N is asserted nothing counts (R209). -/
def tick (s : State) : State :=
  if s.resetAsserted then s
  else { s.passCounts 1 with pending := s.pending ++ (s.passCounts 1).dueEvents }

end Sys2Proof.Machine
end

