-- ==== Sys2Proof/Machine/Transmit.lean ====
section
/-! DEFINITION. Machine/Transmit.lean: TRANSMISSION_COMPLETE, ITEM_TAKE and PENDING_DUTY_TAKEN
(spec/05_reply_queue_and_transmitter.md). -/

namespace Sys2Proof.Machine

/-- The counters of a completed frame (R111, step 1): answers sent only while the entry carries the item's generation. -/
def State.countCompletion (s : State) (x : Sending) : State :=
  match x.kind with
  | .answerV4 | .answerV6 =>
    let s := s.count DeviceCounters.countAnswer
    match s.binding x.entry with
    | some b => if (s.entry x.entry).gen = x.gen then s.countSlot b.owner SlotCounters.countAnswer else s
    | none => s
  | .duty _ => s.count DeviceCounters.countDuty

/-- A counted probe completion: probes sent up by 1, a pending PROBE cleared, the probe timer started (R58). -/
def Binding.probeSent (due : Nat) (b : Binding) : Binding :=
  { b with
    probesSent := b.probesSent + 1
    duty := if b.duty = some .probe then none else b.duty
    probeDue := some due }

/-- The claim engine hears of a completed PROBE: it counts when the generation is the item's, the entry TENTATIVE and its
probe timer stopped (R58). -/
def State.probeCompleted (s : State) (e : Fin 96) (gen : Byte) : State :=
  match s.binding e with
  | none => s
  | some b =>
    if (s.entry e).gen = gen ∧ b.claim = .tentative ∧ b.probeDue = none then
      s.modBinding e (Binding.probeSent (s.now + s.settings.probeInterval))
    else s

/-- The slot controller hears of a completed HANDBACK: it concerns a release in progress when it carries the entry's present
generation (R52, R53). -/
def State.handbackCompleted (s : State) (e : Fin 96) (gen : Byte) : State :=
  if (s.entry e).gen = gen then (s.leaveSet false e).endReleaseIfDone else s

/-- The report of a completion (R111, step 2). -/
def State.reportCompletion (s : State) (x : Sending) : State :=
  match x.kind with
  | .duty .probe => s.probeCompleted x.entry x.gen
  | .duty .handback => s.handbackCompleted x.entry x.gen
  | .duty .announce => s
  | .duty .defend => s
  | .answerV4 => s
  | .answerV6 => s

/-- A transmission completes: counted, reported, and the transmitter idle; its take of the next item ends the event (R111). -/
def completeTransmission (s : State) : State :=
  match s.tx with
  | none => s
  | some x =>
    { (s.countCompletion x).reportCompletion x with tx := none, lastEnded := some { frame := x.frame, checkGood := true } }

/-- TRANSMISSION_COMPLETE (R111); an idle transmitter completes nothing (log 4). -/
def execTransmissionComplete (s : State) : Host.Outcome State Fault Refusal := event completeTransmission s

/-- ITEM_TAKE: the transmitter, if it is idle with the link up and an item queued, takes the head item, and the next after each
it discards (R103 to R110); `event` ends with that take (log 8). -/
def execItemTake (s : State) : Host.Outcome State Fault Refusal := event id s

/-- PENDING_DUTY_TAKEN: a free place is given to the lowest-numbered waiting duty (R101). -/
def execPendingDutyTaken (s : State) : Host.Outcome State Fault Refusal := event State.givePlace s

end Sys2Proof.Machine
end

