-- ==== Sys2Proof/Machine/Dispatch.lean ====
section
/-! DEFINITION. Machine/Dispatch.lean: one arm for each command, a direct call of its meaning. -/

namespace Sys2Proof.Machine

def exec (i : Instr) (s : State) : Host.Outcome State Fault Refusal :=
  match i with
  | .powerOn awake link csLow => Sys2Proof.Machine.execPowerOn awake link csLow s
  | .awakeRises n => Sys2Proof.Machine.execAwakeRises n s
  | .awakeFalls n => Sys2Proof.Machine.execAwakeFalls n s
  | .linkLoss => Sys2Proof.Machine.execLinkLoss s
  | .linkUp => Sys2Proof.Machine.execLinkUp s
  | .frameTaken bytes fcsGood => Sys2Proof.Machine.execFrameTaken bytes fcsGood s
  | .probeTimerExpiry e => Sys2Proof.Machine.execProbeTimerExpiry e s
  | .defenceDeadlineReached e => Sys2Proof.Machine.execDefenceDeadlineReached e s
  | .pulseTimerExpiry n => Sys2Proof.Machine.execPulseTimerExpiry n s
  | .wakeTimeoutExpiry n => Sys2Proof.Machine.execWakeTimeoutExpiry n s
  | .transmissionComplete => Sys2Proof.Machine.execTransmissionComplete s
  | .itemTake => Sys2Proof.Machine.execItemTake s
  | .pendingDutyTaken => Sys2Proof.Machine.execPendingDutyTaken s
  | .commandAreaWrite offset value => Sys2Proof.Machine.execCommandAreaWrite offset value s
  | .windowWriteIgnored offset value => Sys2Proof.Machine.execWindowWriteIgnored offset value s
  | .ack => Sys2Proof.Machine.execAck s
  | .abort => Sys2Proof.Machine.execAbort s
  | .invalidControlWrite value => Sys2Proof.Machine.execInvalidControlWrite value s
  | .unknownCommand code => Sys2Proof.Machine.execUnknownCommand code s
  | .setStation addr => Sys2Proof.Machine.execSetStation addr s
  | .setSegment tag => Sys2Proof.Machine.execSetSegment tag s
  | .setTiming count interval window => Sys2Proof.Machine.execSetTiming count interval window s
  | .setAttentionMask slotMask deviceMask enable => Sys2Proof.Machine.execSetAttentionMask slotMask deviceMask enable s
  | .readDevice clear => Sys2Proof.Machine.execReadDevice clear s
  | .deviceReset => Sys2Proof.Machine.execDeviceReset s
  | .openSlot slot client mode => Sys2Proof.Machine.execOpenSlot slot client mode s
  | .setSlotPolicy slot loss rearm pulse timeout retries => Sys2Proof.Machine.execSetSlotPolicy slot loss rearm pulse timeout retries s
  | .addAddress slot family address => Sys2Proof.Machine.execAddAddress slot family address s
  | .removeAddress entry => Sys2Proof.Machine.execRemoveAddress entry s
  | .attachPattern slot pattern => Sys2Proof.Machine.execAttachPattern slot pattern s
  | .detachPattern slot pattern => Sys2Proof.Machine.execDetachPattern slot pattern s
  | .arm slot => Sys2Proof.Machine.execArm slot s
  | .disarm slot => Sys2Proof.Machine.execDisarm slot s
  | .wake slot => Sys2Proof.Machine.execWake slot s
  | .release slot announce => Sys2Proof.Machine.execRelease slot announce s
  | .readSlot slot clear => Sys2Proof.Machine.execReadSlot slot clear s
  | .readEntry entry => Sys2Proof.Machine.execReadEntry entry s
  | .lookup family address => Sys2Proof.Machine.execLookup family address s
  | .readAttention which => Sys2Proof.Machine.execReadAttention which s
  | .writePattern pattern offset length mask value => Sys2Proof.Machine.execWritePattern pattern offset length mask value s
  | .clearPattern pattern => Sys2Proof.Machine.execClearPattern pattern s
  | .readPattern pattern => Sys2Proof.Machine.execReadPattern pattern s
  | .goRefused => Sys2Proof.Machine.execGoRefused s
  | .resetNAsserted => Sys2Proof.Machine.execResetNAsserted s

end Sys2Proof.Machine
end

