-- ==== Sys2Proof/Machine/Port.lean ====
section
/-! DEFINITION. Machine/Port.lean: the pins of the management port (R153 to R157, log 13).

The table has no row for a pin edge or a read. The functions here turn the edges of CS_N and SCK into what the rules give: bytes,
offsets, the bytes read, and for each data byte written the row of the table that R155 makes of it, executed at once as an
event of the port (R154). While RESET_N is asserted every edge is ignored (R157). -/

namespace Sys2Proof.Machine

/-- One place on, but not past 256: once past FFh a transaction stays past it (R154). -/
def nextOffset (offset : Nat) : Nat := min (offset + 1) 256

/-- The byte a read carries at an offset: from the copy of the status bytes at 00h to 08h, as it stands above (R154, R156). -/
def State.readByte (s : State) (copy : List Byte) (offset : Nat) : Byte :=
  if offset ≤ 0x08 then byteAt copy offset else s.windowRead offset

/-- The byte carried next is `b`. -/
def State.carry (s : State) (phase : PortPhase) (b : Byte) : State :=
  { s with port := { s.port with phase := phase, bits := [], out := b } }

/-- A data byte of a write transaction as one event of the port: past FFh it is ignored (R154, R155). -/
def State.writeByte (s : State) (offset : Nat) (b : Byte) : Host.Outcome State Fault Refusal :=
  let s := s.carry (.writing (nextOffset offset)) 0x00#8
  if offset ≤ 0xFF then exec (s.windowWriteCommand (BitVec.ofNat 8 offset) b) s else .next s

/-- A byte of a transaction, its eighth bit just sampled (R153, R154, R156). -/
def State.portByte (s : State) (b : Byte) : Host.Outcome State Fault Refusal :=
  match s.port.phase with
  | .idle => .next (s.carry .idle 0x00#8)
  | .ignoring => .next (s.carry .ignoring 0x00#8)
  | .direction =>
    if b = 0x80#8 then .next (s.carry (.start true) 0x00#8)
    else if b = 0x00#8 then .next (s.carry (.start false) 0x00#8)
    else .next (s.carry .ignoring 0x00#8)
  | .start true =>
    let copy := if b.toNat ≤ 0x08 then s.statusBytes else []
    .next (s.carry (.reading b.toNat copy) (s.readByte copy b.toNat))
  | .start false => .next (s.carry (.writing b.toNat) 0x00#8)
  | .reading offset copy =>
    .next (s.carry (.reading (nextOffset offset) copy) (s.readByte copy (nextOffset offset)))
  | .writing offset => s.writeByte offset b

/-- The byte whose bits, most significant first, are `l` (R153). -/
def byteOfBits (l : List Bool) : Byte := BitVec.ofNat 8 (l.foldl (fun acc b => acc * 2 + b.toNat) 0)

/-- CS_N falls: a transaction begins with its byte 1, and SDO is driven with 00h (R153). -/
def State.csFalls (s : State) : State :=
  if s.resetAsserted then s else { s with port := { phase := .direction, sdo := some false } }

/-- CS_N rises: the transaction ends, a partial byte is dropped, and SDO is not driven (R153, R154). -/
def State.csRises (s : State) : State :=
  if s.resetAsserted then s else { s with port := {} }

/-- SCK rises: SDI is sampled, and the eighth bit makes a byte. While CS_N is high it is ignored (R153). -/
def State.sckRises (s : State) (sdi : Bool) : Host.Outcome State Fault Refusal :=
  if s.resetAsserted ∨ s.port.phase = .idle then .next s
  else
    let bits := s.port.bits ++ [sdi]
    if bits.length < 8 then .next { s with port := { s.port with bits := bits } }
    else s.portByte (byteOfBits bits)

/-- SCK falls: SDO changes to the next bit of the byte carried, most significant first (R153). DESIGN CHOICE (log 13): in the bytes
ignored after a reset with CS_N already low the byte carried is 00h, so SDO, not driven at the reset, is driven low from the first
falling edge on; R157 has those bytes ignored and says nothing of SDO. -/
def State.sckFalls (s : State) : State :=
  if s.resetAsserted ∨ s.port.phase = .idle then s
  else { s with port := { s.port with sdo := some (s.port.out.getLsbD (7 - s.port.bits.length)) } }

end Sys2Proof.Machine
end

