-- ==== Sys2Proof/Safety.lean ====
section
/-! DEFINITION. Safety.lean: the laws that the manual states of the records, as properties of one state. The obligations claim that
every step keeps them. Each docstring names the rules it gathers. -/

namespace Sys2Proof.Machine

/-- RESET_N is deasserted, and the transmitter has taken all it can: it is sending, or the link is down, or the queue is empty
(R103). Every event leaves the part so. -/
abbrev Settled (s : State) : Prop := s.resetAsserted = false ∧ s.canTake = false

/-- The mailbox is IDLE in a settled part: the state in which a GO is executed (R159). -/
abbrev Ready (s : State) : Prop := Settled s ∧ s.mailbox.state = .idle

/-- The transmitter never idles beside an item it could take (R103). -/
abbrev TakeLaw (s : State) : Prop := s.canTake = false

/-- The reply queue holds at most 16 items; with the link up a duty waits only while it is full (R97, R102); with the link down it is
empty and the transmitter idle (R114, R116). -/
abbrev QueueLaw (s : State) : Prop :=
  s.queue.length ≤ 16 ∧ (s.link = true → (∃ e, s.duty e ≠ none) → s.queue.length = 16)
    ∧ (s.link = false → s.queue = [] ∧ s.tx = none)

/-- WAKE_n is asserted and the wake timers run only while slot `n` is WAKING; then the timeout timer runs, and the pulse timer runs
exactly while WAKE_n is asserted, and expires before the timeout timer (R31, R130, R132). -/
abbrev WakeLaw (x : Slot) : Prop :=
  if x.state = .waking then
    x.timeoutDue ≠ none ∧ (x.wakeLine = true ↔ x.pulseDue ≠ none)
      ∧ ∀ p ∈ x.pulseDue, ∀ t ∈ x.timeoutDue, p < t
  else x.wakeLine = false ∧ x.pulseDue = none ∧ x.timeoutDue = none

abbrev WakeLaws (s : State) : Prop := ∀ n, WakeLaw (s.slot n)

/-- The mailbox is EXECUTING exactly while one slot is RELEASING; the outstanding handbacks count the release handback set, which is
not empty, and are 0 in every other state (R8, R51, R52, R53). -/
def ReleaseLaw (s : State) : Prop :=
  (∀ n, (s.slot n).state = .releasing ↔ ∃ r, s.mailbox.state = .executing r ∧ r.slot = n)
    ∧ (∀ r, s.mailbox.state = .executing r → (s.slot r.slot).outstanding = r.set.length ∧ r.set ≠ [])
    ∧ ∀ n, (s.slot n).state ≠ .releasing → (s.slot n).outstanding = 0

/-- Client addresses: present exactly outside VACANT, with the answer mode; usable; pairwise different; none the nonzero station
address; and every OWN-mode slot beyond STAGED finds a nonzero station address (R1, R3, R26). -/
def HostLaw (s : State) : Prop :=
  (∀ n, ((s.slot n).client = none ↔ (s.slot n).state = .vacant) ∧ ((s.slot n).mode = none ↔ (s.slot n).state = .vacant))
    ∧ (∀ n a, (s.slot n).client = some a →
        a ≠ 0 ∧ isGroup a = false ∧ (s.settings.station ≠ 0 → a ≠ s.settings.station))
    ∧ (∀ n m a, (s.slot n).client = some a → (s.slot m).client = some a → n = m)
    ∧ isGroup s.settings.station = false
    ∧ ∀ n, (s.slot n).mode = some .own → (s.slot n).state ≠ .staged → s.settings.station ≠ 0

/-- The ranges of the device settings; mask bits that belong to no kind are 0 (R25, R199). -/
abbrev SettingsLaw (s : State) : Prop :=
  s.settings.segment.toNat ≤ 4094
    ∧ timingInRange s.settings.probeCount s.settings.probeInterval s.settings.defenceWindow = true
    ∧ s.settings.slotMask &&& 0x80#8 = 0 ∧ s.settings.deviceMask &&& 0xF0#8 = 0

/-- The ranges of a slot's wake policy and of its attempts made (R1, R7). -/
abbrev PolicyLaw (x : Slot) : Prop :=
  1 ≤ x.pulseWidth ∧ x.pulseWidth ≤ 255 ∧ x.wakeTimeout % 100 = 0 ∧ x.wakeTimeout ≤ 25500
    ∧ x.pulseWidth < x.wakeTimeout ∧ x.wakeRetries ≤ 7 ∧ x.attempts ≤ 8

abbrev PolicyLaws (s : State) : Prop := ∀ n, PolicyLaw (s.slot n)

/-- Attention sets hold only the kinds of their type (R140, R199). -/
abbrev AttentionLaw (s : State) : Prop :=
  (∀ n, (s.slot n).attention &&& 0x80#8 = 0) ∧ s.deviceAttention &&& 0xF0#8 = 0

/-- Pattern records: a reference count is the number of lists that hold the pattern, a pattern in use is DEFINED, lists hold at most 4
patterns without duplicates, and definitions are in range (R6, R12, R23, R120). -/
def PatternLaw (s : State) : Prop :=
  (∀ p, (s.pattern p).refs = ((List.finRange 16).filter fun n => decide (p ∈ (s.slot n).patterns)).length)
    ∧ (∀ p, (s.pattern p).refs ≠ 0 → (s.pattern p).definition ≠ none)
    ∧ (∀ n, (s.slot n).patterns.Nodup ∧ (s.slot n).patterns.length ≤ 4)
    ∧ ∀ p d, (s.pattern p).definition = some d →
        d.offset ≤ 191 ∧ 1 ≤ d.length ∧ d.length ≤ 32 ∧ ∃ i, i < d.length ∧ d.mask.getLsbD i = true

/-- Way `w` of bucket `k` refers to entry `e`. -/
abbrev State.wayHolds (s : State) (k : Fin 64) (w : Fin 4) (e : Fin 96) : Prop := (s.bucket k)[w] = some e

/-- The binding records: an allocated entry stands in its owner's list alone and in exactly one way, in the bucket of its key; a FREE
entry stands in none; no two entries have one key; keys are usable; lists hold at most 8 entries without duplicates; a VACANT slot
has the vacant values; a release handback set holds entries of its slot, each once (R2, R5, R11, R12, R17, R51). -/
def RecordsLaw (s : State) : Prop :=
  (∀ n e, e ∈ (s.slot n).addresses ↔ ∃ b, s.binding e = some b ∧ b.owner = n)
    ∧ (∀ n, (s.slot n).addresses.Nodup ∧ (s.slot n).addresses.length ≤ 8)
    ∧ (∀ e b, s.binding e = some b → b.addr.usable = true ∧ ∃ w, s.wayHolds (bucketOf b.addr) w e)
    ∧ (∀ k w e, s.wayHolds k w e → ∃ b, s.binding e = some b ∧ bucketOf b.addr = k)
    ∧ (∀ k w v e, s.wayHolds k w e → s.wayHolds k v e → w = v)
    ∧ (∀ e f b c, s.binding e = some b → s.binding f = some c → b.addr = c.addr → e = f)
    ∧ (∀ n, (s.slot n).state = .vacant → s.slot n = { counters := (s.slot n).counters })
    ∧ ∀ r, s.mailbox.state = .executing r → r.set.Nodup ∧ ∀ e ∈ r.set, e ∈ (s.slot r.slot).addresses

/-- The claim states that can stand in a slot state: the table of R32. -/
def claimFits (c : ClaimState) (x : SlotState) : Bool :=
  match c with
  | .quiet => x == .staged || x == .armed || x == .releasing
  | .tentative => x == .probing
  | .held => x.standsIn
  | .defended => x.defends
  | .lost => x.standsIn || x == .staged || x == .armed

/-- The duties that an entry can owe in a claim state (R42, R45, R59, R64, R68, R70, R73). -/
def dutyFits (c : ClaimState) (d : Option Duty) : Bool :=
  match c with
  | .quiet => d == none || d == some .handback
  | .tentative => d == none || d == some .probe
  | .held => d == none || d == some .announce
  | .defended => d == none || d == some .defend
  | .lost => d == none

/-- The claim fields of an allocated entry, tied to one another and to the slot (R14, R32, R58, R70). -/
def ClaimFits (probeCount : Nat) (x : SlotState) (b : Binding) : Prop :=
  claimFits b.claim x = true ∧ dutyFits b.claim b.duty = true
    ∧ b.probesSent ≤ probeCount
    ∧ (b.probeDue ≠ none → b.claim = .tentative ∧ b.duty = none)
    ∧ (b.claim = .tentative → b.probeDue = none → b.probesSent < probeCount)
    ∧ (b.defenceDue ≠ none ↔ b.claim = .defended)

/-- Every entry's claim fields fit its slot; a slot beyond STAGED has entries, and a PROBING one has a TENTATIVE entry (R14, R32, R35). -/
def ClaimLaw (s : State) : Prop :=
  (∀ e b, s.binding e = some b → ClaimFits s.settings.probeCount (s.slot b.owner).state b)
    ∧ ∀ n, (s.slot n).state ≠ .vacant → (s.slot n).state ≠ .staged →
        (s.slot n).addresses ≠ [] ∧ ((s.slot n).state = .probing → s.slotTentative n = true)

/-! ### Shapes that the obligations use -/

/-- `s` after command `i` was refused with `r`: the area that spells it, and a response without data (R165, R168). -/
def refusal (i : Instr) (s : State) (r : Result) : State := (s.placeCommand i).complete r []

/-- `t`, the records that command `i` leaves, with the mailbox COMPLETE, result OK and response data `data` (R165, R168). -/
def success (i : Instr) (t : State) (data : List Byte) : State := (t.placeCommand i).complete .ok data

/-- The part with MAILBOX_MISUSE raised and nothing else changed (R142). -/
def misused (s : State) : State := { s with deviceAttention := s.deviceAttention ||| 0x04#8 }

/-- `y` is the record `x`, but that its pending duty may have become a queue item (R100, R101). -/
def MayOwe (x y : Entry) : Prop := y = x ∨ y = x.modBinding fun b => { b with duty := none }

/-- The same for an allocated record. -/
def HasBinding (s : State) (e : Fin 96) (b : Binding) : Prop :=
  s.binding e = some b ∨ s.binding e = some { b with duty := none }

/-- Slot `n` of `s` has become VACANT in `t`: its entries are freed, their ways emptied, its pattern references released, its record
vacant but for the counters; no other record is changed (R16, R54). -/
def Vacated (s t : State) (n : Fin 16) : Prop :=
  t.slot n = { counters := (s.slot n).counters }
    ∧ (∀ m, m ≠ n → t.slot m = s.slot m)
    ∧ (∀ e, e ∈ (s.slot n).addresses → t.entry e = { gen := (s.entry e).gen + 1, binding := none })
    ∧ (∀ e, e ∉ (s.slot n).addresses → MayOwe (s.entry e) (t.entry e))
    ∧ (∀ k w e, t.wayHolds k w e ↔ s.wayHolds k w e ∧ e ∉ (s.slot n).addresses)
    ∧ ∀ p, t.pattern p =
        if p ∈ (s.slot n).patterns then { s.pattern p with refs := (s.pattern p).refs - 1 } else s.pattern p

/-- The states differ in the queue, the transmitter, pending duties and the discards counted, and in nothing else: what the
transmitter does at the end of an event (R101, R103, R105). -/
def TransmitOnly (s t : State) : Prop :=
  t = { s with entries := t.entries, queue := t.queue, tx := t.tx, counters := t.counters }
    ∧ t.counters = { s.counters with itemsDiscarded := t.counters.itemsDiscarded }
    ∧ ∀ e, MayOwe (s.entry e) (t.entry e)

/-- `t` is `s` after the pending duties of the entries `es` were offered: with the link up they become items at the tail in entry-number
order, lowest first, until the queue holds 16; the others stay pending, and with the link down all do (R98, R100). -/
def Offered (s t : State) (es : List (Fin 96)) : Prop :=
  let owing := (List.finRange 96).filter fun e => decide (e ∈ es) && (s.duty e).isSome
  let taken := if s.link = true then owing.take (16 - s.queue.length) else []
  t = { s with entries := t.entries, queue := t.queue }
    ∧ t.queue = s.queue ++ taken.filterMap (fun e => (s.duty e).map fun d => .duty d e (s.entry e).gen)
    ∧ ∀ e, t.entry e = if e ∈ taken then (s.entry e).modBinding (fun b => { b with duty := none }) else s.entry e

/-- What the transmitter's take does to `v`, which is `u` with duties offered: nothing else than it may; nothing at all with the link
down, when nothing was offered either; nothing while it is sending (R103, R116). -/
def Served (u v : State) : Prop :=
  TransmitOnly u v.serve ∧ (u.link = false → v.serve = u) ∧ (u.tx ≠ none → v.serve = v)

/-- `w` is `v` after the answer step of the taken resolution frame `f`, read as `r`, that is evidence against the entry `evidence`, if any: an
answer for a HELD or DEFENDED target of a PROXYING or WAKING slot, but never for that entry, admitted while the link is up and fewer
than 12 items wait, and dropped, counted and REPLY_DROPPED raised otherwise; nothing in every other case (R67, R90, R91, R99). -/
def Answered (v : State) (f : List Byte) (r : ResFrame) (evidence : Option (Fin 96)) (w : State) : Prop :=
  let served := fun (a : Addr) (e : Fin 96) => r.asked = some a ∧ v.lookup a = some e ∧ evidence ≠ some e
    ∧ ∃ b, v.binding e = some b ∧ (b.claim = .held ∨ b.claim = .defended)
      ∧ ((v.slot b.owner).state = .proxying ∨ (v.slot b.owner).state = .waking)
  ((∀ a e, ¬ served a e) → w = v)
    ∧ ∀ a e, served a e → ∃ item, r.answer (sourceLink f) e (v.entry e).gen = some item
        ∧ w = if v.link = true ∧ v.queue.length < 12 then { v with queue := v.queue ++ [item] }
              else { v with
                counters := { v.counters with answersDropped := satInc v.counters.answersDropped }
                deviceAttention := v.deviceAttention ||| 0x08#8 }

/-- An address argument that is refused: a family code other than V4 and V6, or an address that R11 refuses for its family. -/
abbrev addressRefused (family : Byte) (address : BitVec 128) : Prop :=
  (family ≠ 0x01#8 ∧ family ≠ 0x02#8)
    ∨ (family = 0x01#8 ∧ (address.extractLsb' 96 32 = 0 ∨ address.extractLsb' 96 32 = 0xFFFFFFFF#32
        ∨ (0xE0 ≤ (address.extractLsb' 120 8).toNat ∧ (address.extractLsb' 120 8).toNat ≤ 0xEF)))
    ∨ (family = 0x02#8 ∧ (address = 0 ∨ address.extractLsb' 120 8 = 0xFF#8))

/-- The address that an argument gives: of a V4 address the first 4 bytes (R178, R190, R196). -/
def addressGiven (family : Byte) (address : BitVec 128) : Addr :=
  if family = 0x01#8 then .v4 (address.extractLsb' 96 32) else .v6 address

/-- The ones'-complement sum of the 16-bit words of some bytes, an odd last byte completed with 00h, in closed form: every carry added back
leaves a value from 1 to 65,535, unless every byte is 00h (R207). -/
def wordSum (l : List Byte) : Nat :=
  let total := ((List.range l.length).map fun k => (byteAt l k).toNat * if k % 2 = 0 then 256 else 1).sum
  if total = 0 then 0 else (total - 1) % 65535 + 1

/-- The ICMP checksum of a V6 neighbour message, over the frame's own bytes (R207). -/
def frameChecksum (f : List Byte) : Nat :=
  let length := field f 18 2
  65535 - wordSum (slice f 22 32 ++ toBytesBE 4 length ++ [0x00#8, 0x00#8, 0x00#8, 0x3A#8] ++ slice f 54 2 ++ [0x00#8, 0x00#8]
    ++ slice f 58 (length - 4))

/-- The fields of a V4 resolution frame as sent, padded to 60 bytes (R203, R204, R208). -/
def V4Fields (f : List Byte) (dest source : LinkAddr) (operation : Nat) (senderHw : LinkAddr) (sender : BitVec 32)
    (targetHw : LinkAddr) (target : BitVec 32) : Prop :=
  f.length = 60 ∧ field f 0 6 = dest.toNat ∧ field f 6 6 = source.toNat ∧ field f 12 2 = 0x0806
    ∧ field f 14 2 = 1 ∧ field f 16 2 = 0x0800 ∧ field f 18 1 = 6 ∧ field f 19 1 = 4 ∧ field f 20 2 = operation
    ∧ field f 22 6 = senderHw.toNat ∧ field f 28 4 = sender.toNat ∧ field f 32 6 = targetHw.toNat ∧ field f 38 4 = target.toNat
    ∧ ∀ k, 42 ≤ k → byteAt f k = 0

/-- The fields of a V6 neighbour message as sent, with the target link-address option of an advertisement (R203, R205, R207, R208). -/
def V6Fields (f : List Byte) (dest source : LinkAddr) (ipSource ipDest : BitVec 128) (type flags : Nat) (target : BitVec 128)
    (option : Option LinkAddr) : Prop :=
  field f 0 6 = dest.toNat ∧ field f 6 6 = source.toNat ∧ field f 12 2 = 0x86DD
    ∧ field f 14 4 = 0x60000000 ∧ field f 20 1 = 58 ∧ field f 21 1 = 255
    ∧ field f 22 16 = ipSource.toNat ∧ field f 38 16 = ipDest.toNat
    ∧ field f 54 1 = type ∧ field f 55 1 = 0 ∧ field f 56 2 = frameChecksum f ∧ field f 58 1 = flags ∧ field f 59 3 = 0
    ∧ field f 62 16 = target.toNat
    ∧ match option with
      | none => f.length = 78 ∧ field f 18 2 = 24
      | some a => f.length = 86 ∧ field f 18 2 = 32 ∧ field f 78 1 = 2 ∧ field f 79 1 = 1 ∧ field f 80 6 = a.toNat

/-- The commands `es` executed one after another from `s` leave `t`. -/
def Executes : List Instr → State → State → Prop
  | [], s, t => t = s
  | i :: es, s, t => ∃ u, exec i s = .next u ∧ Executes es u t

/-- `t` is `s` in the next count: the time base has counted and each filter has sampled its line (R28, R209). -/
def NextCount (s t : State) : Prop :=
  t = { s with now := s.now + 1, lines := t.lines }
    ∧ ∀ n, t.line n = { s.line n with
        shown := if (s.line n).pin = (s.line n).taken then 0 else (s.line n).shown + 1 }

/-- `es` are the events due in the count after `s`, each once: the changes that the filters' samples complete, and the timers and deadlines
that run out (R28, R209). The pulse expiries stand first: the model's choice (R132; log 7). -/
def DueNext (s : State) (es : List Instr) : Prop :=
  es.Nodup
    ∧ (∀ n, .awakeRises n ∈ es ↔ (s.line n).pin = true ∧ (s.line n).taken = false ∧ 2 ≤ (s.line n).shown)
    ∧ (∀ n, .awakeFalls n ∈ es ↔ (s.line n).pin = false ∧ (s.line n).taken = true ∧ 2 ≤ (s.line n).shown)
    ∧ (∀ n, .pulseTimerExpiry n ∈ es ↔ ∃ d, (s.slot n).pulseDue = some d ∧ d ≤ s.now + 1)
    ∧ (∀ n, .wakeTimeoutExpiry n ∈ es ↔ ∃ d, (s.slot n).timeoutDue = some d ∧ d ≤ s.now + 1)
    ∧ (∀ e, .probeTimerExpiry e ∈ es ↔ ∃ b d, s.binding e = some b ∧ b.probeDue = some d ∧ d ≤ s.now + 1)
    ∧ (∀ e, .defenceDeadlineReached e ∈ es ↔ ∃ b d, s.binding e = some b ∧ b.defenceDue = some d ∧ d ≤ s.now + 1)
    ∧ (∀ i ∈ es,
        (∃ n, i = .awakeRises n ∨ i = .awakeFalls n ∨ i = .pulseTimerExpiry n ∨ i = .wakeTimeoutExpiry n)
        ∨ ∃ e, i = .probeTimerExpiry e ∨ i = .defenceDeadlineReached e)
    ∧ es.Pairwise fun i j => ∀ n, j = .pulseTimerExpiry n → ∃ m, i = .pulseTimerExpiry m

/-- `t` is `s` after `k` counts, in each of which everything due in it has been taken (R28, R209). -/
def CountsPass : Nat → State → State → Prop
  | 0, s, t => t = s
  | k + 1, s, t => ∃ u es v, NextCount s u ∧ DueNext s es ∧ Executes es u v ∧ CountsPass k v t

/-- Command `i`, an expiry that is due only in count `d`, is taken there: every count up to `d`, and `d` itself, passes with everything due in
it taken, the expiry among it (R209; log 5). -/
def TakenInCount (s : State) (d : Nat) (i : Instr) : Prop :=
  s.now < d → ∃ t, exec i s = .next t ∧ t.now = d ∧ CountsPass (d - s.now) s t

/-- A wake attempt on the record of a slot: WAKE_n asserted, both timers started, the pulse counted (R131). -/
def attempted (now : Nat) (x : Slot) : Slot :=
  { x with
    wakeLine := true, pulseDue := some (now + x.pulseWidth), timeoutDue := some (now + x.wakeTimeout)
    counters := { x.counters with wakePulses := satInc x.counters.wakePulses } }

/-- The record of a slot as a wake with cause `c` begins (R39, R131, R137). -/
def woken (now : Nat) (c : WakeCause) (x : Slot) : Slot :=
  attempted now { x with
    state := .waking, cause := some c, attempts := 1, attention := x.attention ||| 0x10#8 }

/-- The frame `bytes` is a taken resolution frame `r` from `source` that makes a claim of form `form` from another station against the entry `e`
with binding `b` (R61). -/
def Claims (bytes : List Byte) (fcsGood : Bool) (s : State) (r : ResFrame) (form : ClaimForm) (e : Fin 96)
    (b : Binding) : Prop :=
  ∃ f a, s.accept bytes fcsGood = .taken f ∧ s.classify f = .resolution r ∧ r.claimed = some (a, form)
    ∧ s.lookup a = some e ∧ s.binding e = some b
    ∧ (s.slot b.owner).client ≠ some (sourceLink f) ∧ ¬ (s.settings.station ≠ 0 ∧ sourceLink f = s.settings.station)

end Sys2Proof.Machine
end

