-- ==== Sys2Proof/Certificates/Slice0/Obligations.lean ====
section
/-! DEFINITION. Certificates/Slice0/Obligations.lean: the statements for the provers, each a rule of the manual or a law that steps keep.

Where a statement gives the state after a command as a record update of the state before, everything it does not name is unchanged:
that is its frame. `success` and `refusal` add the mailbox's part, which `CompletionWritesOutcome` states. `Offered u v es` says
that `v` is `u` with the duties of the entries `es` offered, `v.serve` is `v` after the transmitter's take, and `TransmitOnly u t`
says that `t` is `u` after some such take at the end of the event, which `HeadItemTaken` states (log 8). A command row carries
its code and arguments, which its meaning places in the command area (log 2). -/

open Sys2Proof Sys2Proof.Machine

/-! ### Steps, time and reset -/

/-- A step runs the command at the front of the queue on the state with the queue's rest, for every command and state. -/
def Obligations.StepRunsFrontCommand : Prop :=
  ∀ (c : Instr) (rest : List Instr) (s : State),
    step { s with pending := c :: rest } = exec c { s with pending := rest }

/-- On an empty queue a step is one count of the time base: the model's choice (log 6), with the events of the count in a free
order, the pulse expiries first (log 7). Filters sample their lines; what is due, and nothing else, waits to be taken (R28, R209). -/
def Obligations.EmptyQueueStepCountsTime : Prop :=
  ∀ s : State, s.pending = [] →
    (s.resetAsserted = true → step s = .next s)
    ∧ (s.resetAsserted = false → ∃ u es, step s = .next { u with pending := es } ∧ NextCount s u ∧ DueNext s es)

/-- Every law holds in the state after reset, whose input levels are the model's choice (log 1). -/
def Obligations.LawsHoldAtReset : Prop :=
  Ready State.reset ∧ QueueLaw State.reset ∧ WakeLaws State.reset ∧ ReleaseLaw State.reset ∧ HostLaw State.reset
    ∧ SettingsLaw State.reset ∧ PolicyLaws State.reset ∧ AttentionLaw State.reset ∧ PatternLaw State.reset
    ∧ RecordsLaw State.reset ∧ ClaimLaw State.reset

/-- POWER_ON: the power-on values, the taken levels and the link state sampled from their lines, and a port that ignores a CS_N
already low (R2, R13, R17, R24, R25, R29, R97, R113, R149, R157, R158). It runs from every state; the queue of commands waiting
stays (log 9). -/
def Obligations.PowerOnSamplesInputs : Prop :=
  ∀ (awake : BitVec 16) (link csLow : Bool) (s : State), ∃ t, exec (.powerOn awake link csLow) s = .next t
    ∧ (∀ n, t.line n = { pin := awake.getLsbD n, taken := awake.getLsbD n, shown := 0 })
    ∧ t.link = link ∧ t.port.phase = (if csLow then .ignoring else .idle)
    ∧ (∀ n, t.slot n = {}) ∧ (∀ e, t.entry e = { gen := 0, binding := none }) ∧ (∀ k w e, ¬ t.wayHolds k w e)
    ∧ (∀ p, t.pattern p = { refs := 0, definition := none })
    ∧ t.settings = { station := 0, segment := 0, probeCount := 3, probeInterval := 1000, defenceWindow := 10,
                     slotMask := 0, deviceMask := 0, completionEnable := false }
    ∧ t.deviceAttention = 0 ∧ t.counters = {} ∧ t.queue = [] ∧ t.tx = none
    ∧ t.mailbox.state = .idle ∧ t.mailbox.result = 0
    ∧ (∀ k : Fin 64, t.mailbox.command[k] = 0) ∧ (∀ k : Fin 80, t.mailbox.response[k] = 0)
    ∧ t.now = 0 ∧ t.resetAsserted = false ∧ t.pending = s.pending ∧ attnAsserted t = false

/-- RESET_N_ASSERTED: the port ignores its pins, ATTN_N is deasserted, sets are empty, masks disabled, the mailbox IDLE (R146, R157).
Until POWER_ON every other command changes nothing: the model's choice (log 9). -/
def Obligations.ResetAssertedHoldsPart : Prop :=
  (∀ s : State, ∃ t, exec .resetNAsserted s = .next t
    ∧ t.resetAsserted = true ∧ attnAsserted t = false ∧ t.port.phase = .ignoring ∧ t.port.bits = []
    ∧ (∀ n, (t.slot n).attention = 0) ∧ t.deviceAttention = 0
    ∧ t.settings.slotMask = 0 ∧ t.settings.deviceMask = 0 ∧ t.mailbox.state = .idle
    ∧ t.lines = s.lines ∧ t.link = s.link ∧ t.pending = s.pending)
  ∧ ∀ (i : Instr) (s : State), s.resetAsserted = true → i ≠ .resetNAsserted →
      (∀ a l c, i ≠ .powerOn a l c) → exec i s = .next s

/-! ### Mailbox and window -/

/-- The command area spells its command: for every command that has a code, with every operand at every value, the bytes placed in
the area decode to it, and a GO in IDLE is that command; the bytes after the last argument are left as they were (R159, R196, R200, R201). -/
def Obligations.CommandAreaSpellsCommand : Prop :=
  ∀ (i : Instr) (s : State), i.wellFormed = true → commandCode i ≠ none →
    decodeCommand (s.placeCommand i).mailbox.command.toList = i
      ∧ (s.mailbox.state = .idle → (s.placeCommand i).controlWriteCommand 0x01#8 = i)
      ∧ ∀ k : Fin 64, (commandArgs i).length < k.val → (s.placeCommand i).mailbox.command[k] = s.mailbox.command[k]

/-- A completion writes the state, the result code and the whole response area together, and leaves the command area and everything
outside the mailbox alone: header (code, result, length), data, then 00h (R165, R202). -/
def Obligations.CompletionWritesOutcome : Prop :=
  ∀ (s : State) (r : Result) (data : List Byte), data.length ≤ 77 →
    let t := s.complete r data
    t = { s with mailbox := t.mailbox } ∧ t.mailbox.command = s.mailbox.command
      ∧ t.mailbox.state = .complete ∧ t.mailbox.result = r.code
      ∧ t.mailbox.response[0] = s.mailbox.command[0] ∧ t.mailbox.response[1] = r.code
      ∧ t.mailbox.response[2].toNat = data.length
      ∧ (∀ k, k < data.length → byteAt t.mailbox.response.toList (3 + k) = byteAt data k)
      ∧ ∀ k, data.length ≤ k → byteAt t.mailbox.response.toList (3 + k) = 0

/-- A GO in EXECUTING or COMPLETE executes nothing and raises MAILBOX_MISUSE (R159); a command row given there is such a GO (log 3). A GO in
IDLE with a code that is not a command completes with UNKNOWN_COMMAND and changes nothing else (R168). -/
def Obligations.GoWithoutEffect : Prop :=
  (
    ∀ (i : Instr) (s : State), Settled s → s.mailbox.state ≠ .idle → i.wellFormed = true →
      commandCode i ≠ none ∨ i = .goRefused → exec i s = .next (misused s))
  ∧
    ∀ (c : Byte) (s : State), Ready s → isCommandCode c = false →
      exec (.unknownCommand c) s = .next (refusal (.unknownCommand c) s .unknownCommand)

/-- ACK: in COMPLETE the mailbox returns to IDLE with its result code and response, ATTN_N following R146 alone, and the command area is
writable; in IDLE and EXECUTING it is refused with MAILBOX_MISUSE (R161). -/
def Obligations.AckReturnsMailboxToIdle : Prop :=
  ∀ s : State, Settled s →
    (s.mailbox.state = .complete →
      exec .ack s = .next { s with mailbox := { s.mailbox with state := .idle } }
        ∧ attnAsserted { s with mailbox := { s.mailbox with state := .idle } } = s.enabledPending
        ∧ ∀ o v, inCommandArea o = true →
            exec (.commandAreaWrite o v) { s with mailbox := { s.mailbox with state := .idle } }
              = .next ({ s with mailbox := { s.mailbox with state := .idle } }.storeCommandByte o v))
    ∧ (s.mailbox.state ≠ .complete → exec .ack s = .next (misused s))

/-- ABORT in EXECUTING: the releasing slot becomes VACANT, the release in progress is dropped, the mailbox is COMPLETE with ABORTED and the
RELEASE response, which gives the handbacks still outstanding. ABORT elsewhere, and a control write of any value but 01h, 02h and 04h in
every state, raise MAILBOX_MISUSE and change nothing else (R53, R162, R163, R187). -/
def Obligations.AbortAndMisuse : Prop :=
  (
    ∀ s : State, Settled s →
      ((∀ r, s.mailbox.state ≠ .executing r) → exec .abort s = .next (misused s))
      ∧ ∀ v, v ≠ 0x01#8 → v ≠ 0x02#8 → v ≠ 0x04#8 →
          exec (.invalidControlWrite v) s = .next (misused s) ∧ s.controlWriteCommand v = .invalidControlWrite v)
  ∧
    ∀ (s : State) (r : Release), Settled s → RecordsLaw s → s.mailbox.state = .executing r →
      ∃ t, exec .abort s = .next t ∧ Vacated s t r.slot ∧ (∀ e, e ∉ (s.slot r.slot).addresses → t.entry e = s.entry e)
        ∧ t.mailbox = (s.complete .aborted [countByte r.slot.val, 0x02#8, countByte (s.slot r.slot).addresses.length,
            countByte (s.slot r.slot).outstanding]).mailbox
        ∧ t = { s with slots := t.slots, entries := t.entries, index := t.index, patterns := t.patterns, mailbox := t.mailbox }

/-- A byte written to the command area is stored in IDLE, and refused with MAILBOX_MISUSE otherwise (R164); a byte written at the control
byte is GO for 01h (in IDLE the command that the area spells, else a refused GO), ACK for 02h, ABORT for 04h and an invalid control write for
every other value (R155, R159, R161, R162, R163); a byte written at any other offset is ignored (R155). -/
def Obligations.WindowWrites : Prop :=
  ∀ (s : State) (o v : Byte), Settled s →
    (inCommandArea o = true →
      s.windowWriteCommand o v = .commandAreaWrite o v
      ∧ (s.mailbox.state = .idle → ∃ t, exec (.commandAreaWrite o v) s = .next t
          ∧ t = { s with mailbox := { s.mailbox with command := t.mailbox.command } }
          ∧ ∀ k : Fin 64, t.mailbox.command[k] = if k.val + 0x10 = o.toNat then v else s.mailbox.command[k])
      ∧ (s.mailbox.state ≠ .idle → exec (.commandAreaWrite o v) s = .next (misused s)))
    ∧ (inCommandArea o = false → o ≠ 0x04#8 →
        s.windowWriteCommand o v = .windowWriteIgnored o v ∧ exec (.windowWriteIgnored o v) s = .next s)
    ∧ s.windowWriteCommand 0x04#8 v = s.controlWriteCommand v
    ∧ (s.mailbox.state = .idle → s.controlWriteCommand 0x01#8 = decodeCommand s.mailbox.command.toList)
    ∧ (s.mailbox.state ≠ .idle → s.controlWriteCommand 0x01#8 = .goRefused ∧ exec .goRefused s = .next (misused s))
    ∧ s.controlWriteCommand 0x02#8 = .ack ∧ s.controlWriteCommand 0x04#8 = .abort
    ∧ (v ≠ 0x01#8 → v ≠ 0x02#8 → v ≠ 0x04#8 → s.controlWriteCommand v = .invalidControlWrite v)

/-- What each window offset reads as (R144, R155, R195). -/
def Obligations.WindowReads : Prop :=
  ∀ s : State,
    s.windowRead 0x00 = 0x5C#8 ∧ s.windowRead 0x01 = 0x02#8 ∧ s.windowRead 0x03 = s.mailbox.result
    ∧ s.windowRead 0x02 = (match s.mailbox.state with | .idle => 0x00#8 | .executing _ => 0x01#8 | .complete => 0x02#8)
    ∧ s.windowRead 0x04 = 0x00#8
    ∧ (s.windowRead 0x05).getLsbD 0 = s.link ∧ (s.windowRead 0x05).getLsbD 1 = attnAsserted s
    ∧ (∀ i, 2 ≤ i → (s.windowRead 0x05).getLsbD i = false)
    ∧ (∀ n : Fin 16, (if n.val < 8 then (s.windowRead 0x06).getLsbD n.val else (s.windowRead 0x07).getLsbD (n.val - 8))
        = decide ((s.slot n).attention ≠ 0))
    ∧ s.windowRead 0x08 = s.deviceAttention
    ∧ (∀ o, 0x09 ≤ o → o ≤ 0x0F → s.windowRead o = 0x00#8)
    ∧ (∀ k : Fin 64, s.windowRead (0x10 + k.val) = s.mailbox.command[k])
    ∧ (∀ k : Fin 80, s.windowRead (0x50 + k.val) = s.mailbox.response[k])
    ∧ ∀ o, 0xA0 ≤ o → s.windowRead o = 0x00#8

/-- The management port, whose pins the model puts beside exec (log 13): a fall of CS_N begins a transaction and a rise ends it; eight rising
edges of SCK make a byte, first bit most significant; a falling edge shifts out the next bit of the byte carried; byte 1 is the direction and
byte 2 the start offset; a read carries each offset in turn, 00h to 08h from one copy; a write makes each data byte the row of the table that
its offset gives; past FFh nothing is read or written; in RESET_N asserted every edge is ignored (R153, R154, R155, R156, R157). -/
def Obligations.PortTransactions : Prop :=
  ∀ s : State,
    (s.resetAsserted = true → s.csFalls = s ∧ s.csRises = s ∧ s.sckFalls = s ∧ ∀ d, s.sckRises d = .next s)
    ∧ (s.resetAsserted = false →
      s.csFalls = { s with port := { phase := .direction, bits := [], out := 0, sdo := some false } }
      ∧ s.csRises = { s with port := { phase := .idle, bits := [], out := 0, sdo := none } }
      ∧ (s.port.phase = .idle → s.sckFalls = s ∧ ∀ d, s.sckRises d = .next s)
      ∧ (s.port.phase ≠ .idle →
        s.sckFalls = { s with port := { s.port with sdo := some (s.port.out.getLsbD (7 - s.port.bits.length)) } }
        ∧ (s.port.bits.length < 7 → ∀ d, s.sckRises d = .next { s with port := { s.port with bits := s.port.bits ++ [d] } })
        ∧ ∀ b : Byte, s.port.bits = (List.range 7).map (fun k => b.getLsbD (7 - k)) → s.sckRises (b.getLsbD 0) = s.portByte b))
    ∧ ∀ b : Byte,
      let carrying := fun (phase : PortPhase) (out : Byte) => { s with port := { s.port with phase := phase, bits := [], out := out } }
      (s.port.phase = .ignoring → s.portByte b = .next (carrying .ignoring 0))
      ∧ (s.port.phase = .direction → s.portByte b = .next (carrying
          (if b = 0x80#8 then .start true else if b = 0x00#8 then .start false else .ignoring) 0))
      ∧ (s.port.phase = .start false → s.portByte b = .next (carrying (.writing b.toNat) 0))
      ∧ (s.port.phase = .start true → ∃ copy, s.portByte b = .next (carrying (.reading b.toNat copy) (s.windowRead b.toNat))
          ∧ (b.toNat ≤ 8 → ∀ k, k ≤ 8 → byteAt copy k = s.windowRead k))
      ∧ (∀ o copy, s.port.phase = .reading o copy →
          (o < 8 → s.portByte b = .next (carrying (.reading (o + 1) copy) (byteAt copy (o + 1))))
          ∧ (8 ≤ o → o < 255 → s.portByte b = .next (carrying (.reading (o + 1) copy) (s.windowRead (o + 1))))
          ∧ (255 ≤ o → s.portByte b = .next (carrying (.reading 256 copy) 0)))
      ∧ ∀ o, s.port.phase = .writing o →
          (o < 256 → s.portByte b = exec (s.windowWriteCommand (BitVec.ofNat 8 o) b) (carrying (.writing (o + 1)) 0))
          ∧ (256 ≤ o → s.portByte b = .next (carrying (.writing 256) 0))

/-- ATTN_N is asserted exactly when an enabled kind is pending in some attention set, or when the mailbox is COMPLETE with the completion
enable on; while RESET_N is asserted it is deasserted (R146). -/
def Obligations.AttentionLine : Prop :=
  ∀ s : State,
    attnAsserted s = true ↔ s.resetAsserted = false ∧
      ((∃ n i, (s.slot n).attention.getLsbD i = true ∧ s.settings.slotMask.getLsbD i = true)
        ∨ (∃ i, s.deviceAttention.getLsbD i = true ∧ s.settings.deviceMask.getLsbD i = true)
        ∨ (s.mailbox.state = .complete ∧ s.settings.completionEnable = true))

/-! ### Commands: settings and the device -/

/-- SET_STATION, its checks in their order and its effect (R26, R170). -/
def Obligations.SetStationOutcome : Prop :=
  ∀ (a : LinkAddr) (s : State), Ready s →
    let i := Instr.setStation a
    let used := ∃ n, (s.slot n).mode = some .own ∧ ((s.slot n).state.standsIn = true ∨ (s.slot n).state = .releasing)
    let armed := ∃ n, (s.slot n).mode = some .own ∧ (s.slot n).state = .armed
    let taken := ∃ n, (s.slot n).client = some a
    (isGroup a = true → exec i s = .next (refusal i s .badParameter))
    ∧ (isGroup a = false → (used ∨ (a = 0 ∧ armed)) → exec i s = .next (refusal i s .wrongState))
    ∧ (isGroup a = false → ¬ used → a ≠ 0 → taken → exec i s = .next (refusal i s .duplicateHost))
    ∧ (isGroup a = false → ¬ used → ¬ (a = 0 ∧ armed) → ¬ (a ≠ 0 ∧ taken) →
        exec i s = .next (success i { s with settings := { s.settings with station := a } } []))

/-- SET_SEGMENT, and SET_TIMING, which replaces its three values together and trims probes sent to the new probe count: their checks in
their order and their effects (R25, R27, R171, R172). -/
def Obligations.SegmentAndTimingOutcome : Prop :=
  (
    ∀ (tag : BitVec 16) (s : State), Ready s →
      let i := Instr.setSegment tag
      let still := ∀ n, (s.slot n).state = .vacant ∨ (s.slot n).state = .staged
      (4095 ≤ tag.toNat → exec i s = .next (refusal i s .badParameter))
      ∧ (tag.toNat < 4095 → ¬ still → exec i s = .next (refusal i s .wrongState))
      ∧ (tag.toNat < 4095 → still →
          exec i s = .next (success i { s with settings := { s.settings with segment := tag.setWidth 12 } } [])))
  ∧
    ∀ (count : Byte) (interval : BitVec 16) (window : Byte) (s : State), Ready s →
      let i := Instr.setTiming count interval window
      let good := 1 ≤ count.toNat ∧ count.toNat ≤ 7 ∧ interval.toNat % 10 = 0 ∧ 100 ≤ interval.toNat
        ∧ interval.toNat ≤ 2550 ∧ 1 ≤ window.toNat ∧ window.toNat ≤ 60
      let probing := ∃ n, (s.slot n).state = .probing
      (¬ good → exec i s = .next (refusal i s .badParameter))
      ∧ (good → probing → exec i s = .next (refusal i s .wrongState))
      ∧ (good → ¬ probing → ∃ t, exec i s = .next t
          ∧ t = success i { s with settings := t.settings, entries := t.entries } []
          ∧ t.settings = { s.settings with
              probeCount := count.toNat, probeInterval := interval.toNat, defenceWindow := window.toNat }
          ∧ ∀ e, t.entry e = (s.entry e).modBinding fun b => { b with
              probesSent := if count.toNat < b.probesSent then count.toNat else b.probesSent })

/-- SET_ATTENTION_MASK: no set changes; ATTN_N follows the new masks and the COMPLETE mailbox (R145, R146, R173). -/
def Obligations.SetAttentionMaskOutcome : Prop :=
  ∀ (slotMask deviceMask enable : Byte) (s : State), Ready s →
    let i := Instr.setAttentionMask slotMask deviceMask enable
    let good := slotMask.getLsbD 7 = false ∧ deviceMask.toNat < 16 ∧ (enable = 0x00#8 ∨ enable = 0x01#8)
    (¬ good → exec i s = .next (refusal i s .badParameter))
    ∧ (good → exec i s = .next (success i { s with settings := { s.settings with
        slotMask := slotMask, deviceMask := deviceMask, completionEnable := decide (enable = 0x01#8) } } []))

/-- DEVICE_RESET: slots VACANT with counters 0, allocated entries freed, index empty, patterns EMPTY, queue emptied uncounted, a frame in
transmission cut off with a bad check sequence (log 12), sets and device counters cleared; settings, filters, link and the count kept
(R175). -/
def Obligations.DeviceResetOutcome : Prop :=
  ∀ s : State, Ready s → ∃ t, exec .deviceReset s = .next t
    ∧ t = success .deviceReset { s with
        slots := t.slots, entries := t.entries, index := t.index, patterns := t.patterns
        deviceAttention := 0, counters := {}, queue := [], tx := none, lastEnded := t.lastEnded } []
    ∧ (∀ n, t.slot n = {})
    ∧ (∀ e, t.entry e = { gen := if s.binding e = none then (s.entry e).gen else (s.entry e).gen + 1, binding := none })
    ∧ (∀ k w e, ¬ t.wayHolds k w e) ∧ (∀ p, t.pattern p = { refs := 0, definition := none })
    ∧ (∀ x, s.tx = some x → t.lastEnded = some { frame := x.frame, checkGood := false })
    ∧ (s.tx = none → t.lastEnded = s.lastEnded)

/-! ### Commands: setting up a slot -/

/-- OPEN_SLOT, its checks in their order and its effect (R2, R3, R176). -/
def Obligations.OpenSlotOutcome : Prop :=
  ∀ (slot : Byte) (client : LinkAddr) (mode : Byte) (s : State), Ready s →
    let i := Instr.openSlot slot client mode
    let good := slot.toNat < 16 ∧ (mode = 0x01#8 ∨ mode = 0x02#8) ∧ client ≠ 0 ∧ isGroup client = false
    let known := (∃ m, (s.slot m).client = some client) ∨ (s.settings.station ≠ 0 ∧ client = s.settings.station)
    (¬ good → exec i s = .next (refusal i s .badParameter))
    ∧ ∀ n : Fin 16, n.val = slot.toNat → good →
        ((s.slot n).state ≠ .vacant → exec i s = .next (refusal i s .wrongState))
        ∧ ((s.slot n).state = .vacant → known → exec i s = .next (refusal i s .duplicateHost))
        ∧ ((s.slot n).state = .vacant → ¬ known → mode = 0x01#8 → s.settings.station = 0 →
            exec i s = .next (refusal i s .noStation))
        ∧ ((s.slot n).state = .vacant → ¬ known → ¬ (mode = 0x01#8 ∧ s.settings.station = 0) →
            exec i s = .next (success i (s.setSlot n { s.slot n with
              state := .staged, client := some client, mode := some (if mode = 0x01#8 then .own else .mirrored)
              loss := .notify, autoRearm := false, pulseWidth := 50, wakeTimeout := 5000, wakeRetries := 2
              counters := { answersSent := 0, wakeMatches := 0, lateMatches := 0, claimsSeen := 0, wakePulses := 0 } }) []))

/-- SET_SLOT_POLICY (R7, R177). -/
def Obligations.SetSlotPolicyOutcome : Prop :=
  ∀ (slot loss rearm pulse : Byte) (timeout : BitVec 16) (retries : Byte) (s : State), Ready s →
    let i := Instr.setSlotPolicy slot loss rearm pulse timeout retries
    let good := slot.toNat < 16 ∧ (loss = 0x01#8 ∨ loss = 0x02#8) ∧ (rearm = 0x00#8 ∨ rearm = 0x01#8)
      ∧ pulse ≠ 0 ∧ timeout.toNat % 100 = 0 ∧ 100 ≤ timeout.toNat ∧ timeout.toNat ≤ 25500
      ∧ pulse.toNat < timeout.toNat ∧ retries.toNat ≤ 7
    (¬ good → exec i s = .next (refusal i s .badParameter))
    ∧ ∀ n : Fin 16, n.val = slot.toNat → good →
        ((s.slot n).state ≠ .staged → exec i s = .next (refusal i s .wrongState))
        ∧ ((s.slot n).state = .staged → exec i s = .next (success i (s.setSlot n { s.slot n with
            loss := if loss = 0x01#8 then .notify else .wake, autoRearm := decide (rearm = 0x01#8)
            pulseWidth := pulse.toNat, wakeTimeout := timeout.toNat, wakeRetries := retries.toNat }) []))

/-- ADD_ADDRESS: its checks in their order, a family code other than V4 and V6 and the addresses of R11 refused first; then the lowest FREE
entry, the lowest empty way of the key's bucket, the end of the list (R11, R15, R20, R169, R178). -/
def Obligations.AddAddressOutcome : Prop :=
  ∀ (slot family : Byte) (address : BitVec 128) (s : State), Ready s →
    let i := Instr.addAddress slot family address
    ((16 ≤ slot.toNat ∨ addressRefused family address) → exec i s = .next (refusal i s .badParameter))
    ∧ ∀ n : Fin 16, n.val = slot.toNat → ¬ addressRefused family address →
        let a := addressGiven family address
        let room := (s.slot n).state = .staged ∧ (s.slot n).addresses.length < 8
        let held := ∃ w e b, s.wayHolds (bucketOf a) w e ∧ s.binding e = some b ∧ b.addr = a
        ((s.slot n).state ≠ .staged → exec i s = .next (refusal i s .wrongState))
        ∧ ((s.slot n).state = .staged → 8 ≤ (s.slot n).addresses.length → exec i s = .next (refusal i s .slotFull))
        ∧ (room → (∀ e, s.binding e ≠ none) → exec i s = .next (refusal i s .noRoom))
        ∧ ∀ e, room → s.binding e = none → (∀ c, c < e → s.binding c ≠ none) →
            (held → exec i s = .next (refusal i s .duplicateAddress))
            ∧ (¬ held → (∀ w : Fin 4, (s.bucket (bucketOf a))[w] ≠ none) → exec i s = .next (refusal i s .bucketFull))
            ∧ ∀ w : Fin 4, ¬ held → (s.bucket (bucketOf a))[w] = none →
                (∀ v : Fin 4, v < w → (s.bucket (bucketOf a))[v] ≠ none) →
                ∃ t, exec i s = .next t
                  ∧ t = success i { s with slots := t.slots, entries := t.entries, index := t.index }
                      [countByte e.val, (s.entry e).gen]
                  ∧ (∀ m, t.slot m = if m = n then { s.slot n with addresses := (s.slot n).addresses ++ [e] } else s.slot m)
                  ∧ (∀ c, t.entry c = if c = e then
                      { s.entry e with binding := some { owner := n, addr := a, claim := .quiet, probesSent := 0,
                                                         probeDue := none, defenceDue := none, duty := none } }
                      else s.entry c)
                  ∧ ∀ (k : Fin 64) (v : Fin 4),
                      (t.bucket k)[v] = if k = bucketOf a ∧ v = w then some e else (s.bucket k)[v]

/-- REMOVE_ADDRESS: its checks in their order; then the entry is freed (R16, R21, R179). -/
def Obligations.RemoveAddressOutcome : Prop :=
  ∀ (entry : Byte) (s : State), Ready s → RecordsLaw s →
    let i := Instr.removeAddress entry
    (96 ≤ entry.toNat → exec i s = .next (refusal i s .badParameter))
    ∧ ∀ e : Fin 96, e.val = entry.toNat →
        (s.binding e = none → exec i s = .next (refusal i s .notFound))
        ∧ ∀ b, s.binding e = some b →
            ((s.slot b.owner).state ≠ .staged → exec i s = .next (refusal i s .wrongState))
            ∧ ((s.slot b.owner).state = .staged → ∃ t, exec i s = .next t
                ∧ t = success i { s with slots := t.slots, entries := t.entries, index := t.index }
                    [countByte e.val, (s.entry e).gen + 1]
                ∧ (∀ m, t.slot m = if m = b.owner then
                    { s.slot m with addresses := (s.slot m).addresses.filter fun c => c != e } else s.slot m)
                ∧ (∀ c, t.entry c = if c = e then { gen := (s.entry e).gen + 1, binding := none } else s.entry c)
                ∧ ∀ k w c, t.wayHolds k w c ↔ s.wayHolds k w c ∧ c ≠ e)

/-- ATTACH_PATTERN and DETACH_PATTERN: their checks in their order; the list and the reference count change together (R6, R122, R123, R180,
R181). -/
def Obligations.PatternListOutcome : Prop :=
  (
    ∀ (slot pattern : Byte) (s : State), Ready s →
      let i := Instr.attachPattern slot pattern
      (¬ (slot.toNat < 16 ∧ pattern.toNat < 32) → exec i s = .next (refusal i s .badParameter))
      ∧ ∀ (n : Fin 16) (p : Fin 32), n.val = slot.toNat → p.val = pattern.toNat →
          let fresh := p ∉ (s.slot n).patterns
          let staged := (s.slot n).state = .staged
          (¬ fresh → exec i s = .next (refusal i s .badParameter))
          ∧ (fresh → ¬ staged → exec i s = .next (refusal i s .wrongState))
          ∧ (fresh → staged → (s.pattern p).definition = none → exec i s = .next (refusal i s .notFound))
          ∧ (fresh → staged → (s.pattern p).definition ≠ none → 4 ≤ (s.slot n).patterns.length →
              exec i s = .next (refusal i s .slotFull))
          ∧ (fresh → staged → (s.pattern p).definition ≠ none → (s.slot n).patterns.length < 4 →
              exec i s = .next (success i
                ((s.setPattern p { s.pattern p with refs := (s.pattern p).refs + 1 }).setSlot n
                  { s.slot n with patterns := (s.slot n).patterns ++ [p] })
                [countByte ((s.pattern p).refs + 1)])))
  ∧
    ∀ (slot pattern : Byte) (s : State), Ready s →
      let i := Instr.detachPattern slot pattern
      (¬ (slot.toNat < 16 ∧ pattern.toNat < 32) → exec i s = .next (refusal i s .badParameter))
      ∧ ∀ (n : Fin 16) (p : Fin 32), n.val = slot.toNat → p.val = pattern.toNat →
          let staged := (s.slot n).state = .staged
          (¬ staged → exec i s = .next (refusal i s .wrongState))
          ∧ (staged → p ∉ (s.slot n).patterns → exec i s = .next (refusal i s .notFound))
          ∧ (staged → p ∈ (s.slot n).patterns →
              exec i s = .next (success i
                ((s.setPattern p { s.pattern p with refs := (s.pattern p).refs - 1 }).setSlot n
                  { s.slot n with patterns := (s.slot n).patterns.erase p })
                [countByte ((s.pattern p).refs - 1)]))

/-! ### Commands: arming, waking, releasing -/

/-- ARM: its checks in their order; ARMED while the taken level is high; otherwise the probing start, every entry TENTATIVE with a PROBE
duty, the duties offered to the queue in entry-number order once all are set, and the transmitter's take (R29, R33, R57, R100, R103, R182). -/
def Obligations.ArmOutcome : Prop :=
  ∀ (slot : Byte) (s : State), Ready s →
    let i := Instr.arm slot
    (16 ≤ slot.toNat → exec i s = .next (refusal i s .badParameter))
    ∧ ∀ n : Fin 16, n.val = slot.toNat →
        let staged := (s.slot n).state = .staged
        let station := ¬ ((s.slot n).mode = some .own ∧ s.settings.station = 0)
        (¬ staged → exec i s = .next (refusal i s .wrongState))
        ∧ (staged → ¬ station → exec i s = .next (refusal i s .noStation))
        ∧ (staged → station → (s.slot n).addresses = [] → exec i s = .next (refusal i s .emptySlot))
        ∧ (staged → station → (s.slot n).addresses ≠ [] → (s.line n).taken = true →
            exec i s = .next (success i (s.setSlot n { s.slot n with state := .armed }) [0x03#8]))
        ∧ (staged → station → (s.slot n).addresses ≠ [] → (s.line n).taken = false →
            let u := success i ((s.modBindings (s.slot n).addresses fun b => { b with
              claim := .tentative, probesSent := 0, probeDue := none, defenceDue := none, duty := some .probe }).setSlot n
              { s.slot n with state := .probing }) [0x04#8]
            ∃ v, Offered u v (s.slot n).addresses ∧ exec i s = .next v.serve ∧ Served u v)

/-- DISARM, and WAKE, which is accepted in PROXYING and DARK and begins a wake with the cause COMMAND and a first attempt: their checks in their
order and their effects (R39, R40, R131, R137, R183, R184). -/
def Obligations.DisarmAndWakeOutcome : Prop :=
  (
    ∀ (slot : Byte) (s : State), Ready s →
      let i := Instr.disarm slot
      (16 ≤ slot.toNat → exec i s = .next (refusal i s .badParameter))
      ∧ ∀ n : Fin 16, n.val = slot.toNat →
          ((s.slot n).state ≠ .armed → (s.slot n).state ≠ .probing → exec i s = .next (refusal i s .wrongState))
          ∧ ((s.slot n).state = .armed → exec i s = .next (success i (s.setSlot n { s.slot n with state := .staged }) []))
          ∧ ((s.slot n).state = .probing → exec i s = .next (success i
              ((s.modBindings (s.slot n).addresses fun b =>
                if b.claim = .tentative ∨ b.claim = .held ∨ b.claim = .defended then
                  { b with claim := .quiet, probeDue := none, defenceDue := none, duty := none }
                else b).setSlot n { s.slot n with state := .staged }) [])))
  ∧
    ∀ (slot : Byte) (s : State), Ready s →
      let i := Instr.wake slot
      (16 ≤ slot.toNat → exec i s = .next (refusal i s .badParameter))
      ∧ ∀ n : Fin 16, n.val = slot.toNat →
          ((s.slot n).state ≠ .proxying → (s.slot n).state ≠ .dark → exec i s = .next (refusal i s .wrongState))
          ∧ ((s.slot n).state = .proxying ∨ (s.slot n).state = .dark →
              exec i s = .next (success i (s.setSlot n (woken s.now .command (s.slot n))) []))

/-- RELEASE, its checks and its immediate form: the slot becomes VACANT in the GO event, and nothing of the other slots changes; from records
that fulfil the release law the response gives no outstanding handbacks (R54, R185, R187). -/
def Obligations.ReleaseImmediate : Prop :=
  ∀ (slot announce : Byte) (s : State), Ready s → RecordsLaw s →
    let i := Instr.release slot announce
    (¬ (slot.toNat < 16 ∧ (announce = 0x00#8 ∨ announce = 0x01#8)) → exec i s = .next (refusal i s .badParameter))
    ∧ ∀ n : Fin 16, n.val = slot.toNat → announce = 0x00#8 ∨ announce = 0x01#8 →
        ((s.slot n).state = .vacant → exec i s = .next (refusal i s .wrongState))
        ∧ ((s.slot n).state ≠ .vacant →
            ¬ (announce = 0x01#8 ∧ (s.slot n).mode = some .own ∧ s.slotHeld n = true) →
            ∃ t, exec i s = .next t ∧ Vacated s t n ∧ (∀ e, e ∉ (s.slot n).addresses → t.entry e = s.entry e)
              ∧ let u := { s with slots := t.slots, entries := t.entries, index := t.index, patterns := t.patterns }
                let freed := countByte (s.slot n).addresses.length
                t = success i u [slot, 0x01#8, freed, countByte (s.slot n).outstanding]
                  ∧ (ReleaseLaw s → t = success i u [slot, 0x01#8, freed, 0x00#8]))

/-- RELEASE with announcement: RELEASING, held entries QUIET with HANDBACK duties, every other entry QUIET without one, WAKE_n deasserted and
the wake timers stopped, the mailbox EXECUTING with result and response unwritten; then the HANDBACK duties are offered in entry-number order,
and the transmitter takes (R51, R100, R103, R160, R186). -/
def Obligations.ReleaseWithAnnouncement : Prop :=
  ∀ (slot : Byte) (s : State) (n : Fin 16), Ready s → n.val = slot.toNat → (s.slot n).state ≠ .vacant →
    (s.slot n).mode = some .own → s.slotHeld n = true →
    let held := (s.slot n).addresses.filter s.isHeld
    let i := Instr.release slot 0x01#8
    let p := s.placeCommand i
    let u := { (p.modBindings (s.slot n).addresses fun b => { b with
        claim := .quiet, probeDue := none, defenceDue := none
        duty := if b.claim = .held ∨ b.claim = .defended then some .handback else none }).setSlot n { s.slot n with
          state := .releasing, outstanding := held.length, wakeLine := false, pulseDue := none, timeoutDue := none } with
      mailbox := { p.mailbox with state := .executing { slot := n, set := held, mark := false } } }
    ∃ v, Offered u v held ∧ exec i s = .next v.serve ∧ Served u v ∧ held ≠ []

/-! ### Commands: reading -/

/-- The commands that only read: accepted in every slot state, they change nothing but the counters that a clear flag names, after the
copy; a look-up finds the one entry that holds the key (R11, R12, R19, R149, R169, R174, R188, R189, R190, R194). -/
def Obligations.ReadsChangeNothing : Prop :=
  ∀ s : State, Ready s →
    (∀ c : Byte, c ≠ 0x00#8 → c ≠ 0x01#8 →
        exec (.readDevice c) s = .next (refusal (.readDevice c) s .badParameter)
        ∧ ∀ n, exec (.readSlot n c) s = .next (refusal (.readSlot n c) s .badParameter))
    ∧ exec (.readDevice 0x00#8) s = .next (success (.readDevice 0x00#8) s s.deviceData)
    ∧ exec (.readDevice 0x01#8) s = .next (success (.readDevice 0x01#8) { s with counters := {} } s.deviceData)
    ∧ (∀ b c : Byte, 16 ≤ b.toNat → exec (.readSlot b c) s = .next (refusal (.readSlot b c) s .badParameter))
    ∧ (∀ (b : Byte) (n : Fin 16), n.val = b.toNat →
        exec (.readSlot b 0x00#8) s = .next (success (.readSlot b 0x00#8) s (slotData s.now (s.line n).taken (s.slot n)))
        ∧ exec (.readSlot b 0x01#8) s = .next (success (.readSlot b 0x01#8) (s.setSlot n { s.slot n with counters := {} })
            (slotData s.now (s.line n).taken (s.slot n))))
    ∧ (∀ b : Byte, 96 ≤ b.toNat → exec (.readEntry b) s = .next (refusal (.readEntry b) s .badParameter))
    ∧ (∀ (b : Byte) (e : Fin 96), e.val = b.toNat →
        exec (.readEntry b) s = .next (success (.readEntry b) s (entryData s.now e (s.entry e))))
    ∧ (∀ b : Byte, 32 ≤ b.toNat → exec (.readPattern b) s = .next (refusal (.readPattern b) s .badParameter))
    ∧ (∀ (b : Byte) (p : Fin 32), p.val = b.toNat →
        exec (.readPattern b) s = .next (success (.readPattern b) s (patternData (s.pattern p))))
    ∧ (∀ (f : Byte) (x : BitVec 128), addressRefused f x →
        exec (.lookup f x) s = .next (refusal (.lookup f x) s .badParameter))
    ∧ (RecordsLaw s → ∀ a e, s.lookup a = some e ↔ ∃ b, s.binding e = some b ∧ b.addr = a)
    ∧ ∀ (f : Byte) (x : BitVec 128), ¬ addressRefused f x →
        let a := addressGiven f x
        (s.lookup a = none → exec (.lookup f x) s = .next (refusal (.lookup f x) s .notFound))
        ∧ ∀ e b, s.lookup a = some e → s.binding e = some b →
            exec (.lookup f x) s = .next (success (.lookup f x) s [countByte e.val, countByte b.owner.val, b.claim.code])

/-- READ_ATTENTION: the named set is in the response and is emptied in the same event; no other set changes (R143, R191). -/
def Obligations.ReadAttentionEmptiesSet : Prop :=
  ∀ (which : Byte) (s : State), Ready s →
    let i := Instr.readAttention which
    (16 ≤ which.toNat → which ≠ 0xFF#8 → exec i s = .next (refusal i s .badParameter))
    ∧ (which = 0xFF#8 → exec i s = .next (success i { s with deviceAttention := 0 } [s.deviceAttention]))
    ∧ ∀ n : Fin 16, n.val = which.toNat →
        exec i s = .next (success i (s.setSlot n { s.slot n with attention := 0 }) [(s.slot n).attention])

/-- The response data of READ_ENTRY, READ_PATTERN, READ_SLOT and READ_DEVICE, place by place, numbers low byte first and addresses first byte
first, a stopped timer or absent deadline as 0 and a running one as at least 1 (R169, R174, R188, R189, R194, R196, R198, R202, R209). -/
def Obligations.ResponsePlaces : Prop :=
  let two := fun (l : List Byte) k => (byteAt l k).toNat + 256 * (byteAt l (k + 1)).toNat
  let four := fun (l : List Byte) k => two l k + 65536 * two l (k + 2)
  let flag := fun b : Bool => if b then 0x01#8 else 0x00#8
  let left := fun (now : Nat) (due : Option Nat) (x : Nat) =>
    (due = none → x = 0) ∧ ∀ d, due = some d → x = (if d ≤ now then 1 else d - now) % 65536
  (∀ (now : Nat) (e : Fin 96) (x : Entry),
    let l := entryData now e x
    l.length = 0x1B ∧ byteAt l 0 = BitVec.ofNat 8 e.val ∧ byteAt l 2 = x.gen
      ∧ (x.binding = none → byteAt l 1 = 0x01#8 ∧ ∀ k, 3 ≤ k → byteAt l k = 0)
      ∧ ∀ b, x.binding = some b →
          byteAt l 1 = (match b.claim with
            | .quiet => 0x02#8 | .tentative => 0x03#8 | .held => 0x04#8 | .defended => 0x05#8 | .lost => 0x06#8)
          ∧ byteAt l 3 = BitVec.ofNat 8 b.owner.val
          ∧ (∀ a, b.addr = .v4 a → byteAt l 4 = 0x01#8
              ∧ (∀ k, k < 4 → byteAt l (5 + k) = a.extractLsb' (8 * (3 - k)) 8) ∧ ∀ k, 4 ≤ k → k < 16 → byteAt l (5 + k) = 0)
          ∧ (∀ a, b.addr = .v6 a → byteAt l 4 = 0x02#8 ∧ ∀ k, k < 16 → byteAt l (5 + k) = a.extractLsb' (8 * (15 - k)) 8)
          ∧ byteAt l 0x15 = BitVec.ofNat 8 b.probesSent
          ∧ left now b.probeDue (two l 0x16) ∧ left now b.defenceDue (two l 0x18)
          ∧ byteAt l 0x1A = (match b.duty with
              | none => 0x00#8
              | some d => match d with | .probe => 0x01#8 | .announce => 0x02#8 | .defend => 0x03#8 | .handback => 0x04#8))
  ∧ (∀ x : Pattern, (patternData x).length = 0x28 ∧ byteAt (patternData x) 1 = BitVec.ofNat 8 x.refs
      ∧ (x.definition = none → byteAt (patternData x) 0 = 0x01#8 ∧ ∀ k, 2 ≤ k → byteAt (patternData x) k = 0)
      ∧ ∀ d, x.definition = some d → byteAt (patternData x) 0 = 0x02#8
          ∧ byteAt (patternData x) 2 = BitVec.ofNat 8 d.offset ∧ byteAt (patternData x) 3 = BitVec.ofNat 8 d.length
          ∧ (∀ i : Fin 32, (byteAt (patternData x) (4 + i.val / 8)).getLsbD (i.val % 8) = d.mask.getLsbD i.val)
          ∧ ∀ i : Fin 32, byteAt (patternData x) (8 + i.val) = d.value[i])
  ∧ (∀ (now : Nat) (v : Bool) (x : Slot),
    let l := slotData now v x
    l.length = 0x2F
      ∧ byteAt l 0 = (match x.state with
          | .vacant => 0x01#8 | .staged => 0x02#8 | .armed => 0x03#8 | .probing => 0x04#8
          | .proxying => 0x05#8 | .waking => 0x06#8 | .dark => 0x07#8 | .releasing => 0x08#8)
      ∧ byteAt l 1 = flag v ∧ byteAt l 2 = flag x.wakeLine
      ∧ (∀ k, k < 6 → byteAt l (3 + k) = (x.client.getD 0).extractLsb' (8 * (5 - k)) 8)
      ∧ byteAt l 9 = (match x.mode with | none => 0x00#8 | some m => match m with | .own => 0x01#8 | .mirrored => 0x02#8)
      ∧ byteAt l 0x0A = BitVec.ofNat 8 x.addresses.length
      ∧ (∀ k, k < 8 → byteAt l (0x0B + k) = BitVec.ofNat 8 ((x.addresses.map (·.val)).getD k 0))
      ∧ byteAt l 0x13 = BitVec.ofNat 8 x.patterns.length
      ∧ (∀ k, k < 4 → byteAt l (0x14 + k) = BitVec.ofNat 8 ((x.patterns.map (·.val)).getD k 0))
      ∧ byteAt l 0x18 = (match x.loss with | .notify => 0x01#8 | .wake => 0x02#8) ∧ byteAt l 0x19 = flag x.autoRearm
      ∧ byteAt l 0x1A = BitVec.ofNat 8 x.pulseWidth ∧ two l 0x1B = x.wakeTimeout % 65536
      ∧ byteAt l 0x1D = BitVec.ofNat 8 x.wakeRetries ∧ byteAt l 0x1E = BitVec.ofNat 8 x.attempts
      ∧ (x.cause = none → byteAt l 0x1F = 0x00#8 ∧ byteAt l 0x20 = 0x00#8)
      ∧ (∀ p, x.cause = some (.pattern p) → byteAt l 0x1F = 0x01#8 ∧ byteAt l 0x20 = BitVec.ofNat 8 p.val)
      ∧ (x.cause = some .command → byteAt l 0x1F = 0x02#8 ∧ byteAt l 0x20 = 0x00#8)
      ∧ (x.cause = some .loss → byteAt l 0x1F = 0x03#8 ∧ byteAt l 0x20 = 0x00#8)
      ∧ left now x.pulseDue (two l 0x21) ∧ left now x.timeoutDue (two l 0x23)
      ∧ two l 0x25 = x.counters.answersSent.toNat ∧ two l 0x27 = x.counters.wakeMatches.toNat
      ∧ two l 0x29 = x.counters.lateMatches.toNat ∧ two l 0x2B = x.counters.claimsSeen.toNat
      ∧ two l 0x2D = x.counters.wakePulses.toNat)
  ∧ ∀ s : State,
    let l := s.deviceData
    l.length = 0x30
      ∧ (∀ k, k < 6 → byteAt l k = s.settings.station.extractLsb' (8 * (5 - k)) 8)
      ∧ two l 6 = s.settings.segment.toNat
      ∧ byteAt l 8 = BitVec.ofNat 8 s.settings.probeCount ∧ two l 9 = s.settings.probeInterval % 65536
      ∧ byteAt l 0x0B = BitVec.ofNat 8 s.settings.defenceWindow
      ∧ byteAt l 0x0C = s.settings.slotMask ∧ byteAt l 0x0D = s.settings.deviceMask
      ∧ byteAt l 0x0E = flag s.settings.completionEnable ∧ byteAt l 0x0F = flag s.link
      ∧ (byteAt l 0x10).toNat = ((List.finRange 96).filter fun e => decide (s.binding e = none)).length
      ∧ (byteAt l 0x11).toNat = ((List.finRange 32).filter fun p => decide ((s.pattern p).definition = none)).length
      ∧ byteAt l 0x12 = BitVec.ofNat 8 s.queue.length ∧ byteAt l 0x13 = flag s.tx.isSome
      ∧ four l 0x14 = s.counters.framesTaken.toNat ∧ four l 0x18 = s.counters.framesRefused.toNat
      ∧ four l 0x1C = s.counters.checksumFailures.toNat ∧ four l 0x20 = s.counters.answersTransmitted.toNat
      ∧ four l 0x24 = s.counters.answersDropped.toNat ∧ four l 0x28 = s.counters.itemsDiscarded.toNat
      ∧ four l 0x2C = s.counters.dutiesTransmitted.toNat

/-- WRITE_PATTERN and CLEAR_PATTERN: their checks in their order and their effects (R120, R121, R192, R193). -/
def Obligations.PatternEdits : Prop :=
  ∀ s : State, Ready s →
    (∀ (pattern offset length : Byte) (mask : BitVec 32) (value : Vector Byte 32),
      let i := Instr.writePattern pattern offset length mask value
      let good := pattern.toNat < 32 ∧ offset.toNat ≤ 191 ∧ 1 ≤ length.toNat ∧ length.toNat ≤ 32
        ∧ ∃ k, k < length.toNat ∧ mask.getLsbD k = true
      (¬ good → exec i s = .next (refusal i s .badParameter))
      ∧ ∀ p : Fin 32, p.val = pattern.toNat → good →
          ((s.pattern p).refs ≠ 0 → exec i s = .next (refusal i s .inUse))
          ∧ ((s.pattern p).refs = 0 → ∃ d, exec i s = .next (success i (s.setPattern p { refs := 0, definition := some d }) [])
              ∧ d.offset = offset.toNat ∧ d.length = length.toNat
              ∧ (∀ k : Fin 32, d.mask.getLsbD k.val = (decide (k.val < length.toNat) && mask.getLsbD k.val))
              ∧ ∀ k : Fin 32, d.value[k] = if k.val < length.toNat then value[k] else 0))
    ∧ ∀ pattern : Byte,
      let i := Instr.clearPattern pattern
      (32 ≤ pattern.toNat → exec i s = .next (refusal i s .badParameter))
      ∧ ∀ p : Fin 32, p.val = pattern.toNat →
          ((s.pattern p).refs ≠ 0 → exec i s = .next (refusal i s .inUse))
          ∧ ((s.pattern p).refs = 0 →
              exec i s = .next (success i (s.setPattern p { refs := 0, definition := none }) []))

/-! ### Lines and link -/

/-- A rise of AWAKE_n: from PROBING, PROXYING, WAKING and DARK the handback, in every other state only the taken level; the raw pin stays as
it is when the filter's samples have shown the change, and shows the level otherwise; the HANDBACK duties are offered in entry-number
order, and the transmitter takes (R28, R30, R44, R45, R100, R103; log 10). -/
def Obligations.RiseHandsBack : Prop :=
  ∀ (n : Fin 16) (s : State), Settled s →
    let x := s.line n
    let l := s.setLine n (if x.taken = true then x else
      { pin := if 3 ≤ x.shown then x.pin else true, taken := true, shown := 0 })
    ((s.slot n).state.standsIn = false → exec (.awakeRises n) s = .next l)
    ∧ ((s.slot n).state.standsIn = true →
      let own := if (s.slot n).mode = some .own then some Duty.handback else none
      let u := (l.modBindings (s.slot n).addresses fun b =>
          match b.claim with
          | .tentative => { b with claim := .quiet, probeDue := none, duty := none }
          | .held => { b with claim := .quiet, defenceDue := none, duty := own }
          | .defended => { b with claim := .quiet, defenceDue := none, duty := own }
          | .lost => { b with duty := none }
          | .quiet => b).setSlot n { s.slot n with
            state := if (s.slot n).autoRearm then .armed else .staged, wakeLine := false, pulseDue := none
            timeoutDue := none, attention := (s.slot n).attention ||| 0x40#8 }
      ∃ v, Offered u v (s.slot n).addresses ∧ exec (.awakeRises n) s = .next v.serve ∧ Served u v)

/-- A fall of AWAKE_n: from ARMED the probing start, in every other state only the taken level; the raw pin stays as it is when the filter's
samples have shown the change, and shows the level otherwise; the PROBE duties are offered in entry-number order, and the transmitter
takes (R28, R30, R33, R34, R57, R100, R103; log 10). -/
def Obligations.FallStartsProbing : Prop :=
  ∀ (n : Fin 16) (s : State), Settled s →
    let x := s.line n
    let l := s.setLine n (if x.taken = false then x else
      { pin := if 3 ≤ x.shown then x.pin else false, taken := false, shown := 0 })
    ((s.slot n).state ≠ .armed → exec (.awakeFalls n) s = .next l)
    ∧ ((s.slot n).state = .armed →
      let u := (l.modBindings (s.slot n).addresses fun b => { b with
          claim := .tentative, probesSent := 0, probeDue := none, defenceDue := none, duty := some .probe }).setSlot n
          { s.slot n with state := .probing }
      ∃ v, Offered u v (s.slot n).addresses ∧ exec (.awakeFalls n) s = .next v.serve ∧ Served u v)

/-- Link loss: the queue and the frame in transmission are discarded and counted, LINK_DOWN is raised, probing restarts, pending DEFEND and
HANDBACK duties are discarded and ANNOUNCE kept, and nothing else changes; in a release the discarded HANDBACK duties, items and frame leave
the release handback set under the discard mark, and when all are gone the slot becomes VACANT and the release ends with PARTIAL; while the
link is down nothing changes. It completes in every state (R52, R53, R113, R114, R115). -/
def Obligations.LinkLossOutcome : Prop :=
  ∀ s : State, Settled s →
    (∃ t, exec .linkLoss s = .next t)
    ∧ (s.link = false → exec .linkLoss s = .next s)
    ∧ (s.link = true →
      let u := { s with
        link := false, queue := [], tx := none, deviceAttention := s.deviceAttention ||| 0x01#8
        counters := { s.counters with
          itemsDiscarded := satInc^[s.queue.length + s.tx.toList.length] s.counters.itemsDiscarded }
        entries := tabulate 96 fun e => (s.entry e).modBinding fun b =>
          if b.claim = .tentative then { b with
            probesSent := 0, probeDue := none, duty := if b.duty = none then some .probe else b.duty }
          else if b.duty = some .defend ∨ b.duty = some .handback then { b with duty := none } else b }
      let gone := fun e => s.duty e = some .handback
        ∨ .duty .handback e (s.entry e).gen ∈ s.queue
        ∨ ∃ x, s.tx = some x ∧ x.kind = .duty .handback ∧ x.entry = e ∧ x.gen = (s.entry e).gen
      ((∀ r, s.mailbox.state ≠ .executing r) → exec .linkLoss s = .next u)
      ∧ ∀ r left, s.mailbox.state = .executing r → ReleaseLaw s → RecordsLaw s →
          (∀ e, e ∈ left ↔ e ∈ r.set ∧ ¬ gone e) → left.Sublist r.set →
          (left = r.set → exec .linkLoss s = .next u)
          ∧ (left ≠ r.set → left ≠ [] → exec .linkLoss s = .next { u.setSlot r.slot { s.slot r.slot with
              outstanding := left.length } with
              mailbox := { s.mailbox with state := .executing { slot := r.slot, set := left, mark := true } } })
          ∧ (left = [] → ∃ t, exec .linkLoss s = .next t ∧ Vacated u t r.slot
              ∧ (∀ e, e ∉ (s.slot r.slot).addresses → t.entry e = u.entry e)
              ∧ t = { u with
                  slots := t.slots, entries := t.entries, index := t.index, patterns := t.patterns
                  mailbox := (s.complete .partialEnd
                    [countByte r.slot.val, 0x02#8, countByte (s.slot r.slot).addresses.length, 0x00#8]).mailbox }))

/-- Link up: the link state is up, LINK_UP is raised, the waiting duties of all entries become items in entry-number order until the queue
holds 16, and the transmitter takes the head; while the link is up nothing changes (R100, R103, R113, R116). -/
def Obligations.LinkUpOutcome : Prop :=
  ∀ s : State, Settled s →
    (s.link = true → exec .linkUp s = .next s)
    ∧ (s.link = false →
      let u := { s with link := true, deviceAttention := s.deviceAttention ||| 0x02#8 }
      ∃ v, Offered u v (List.finRange 96) ∧ exec .linkUp s = .next v.serve ∧ Served u v
        ∧ (s.queue = [] → s.tx = none → (∀ e, s.duty e = none) → v.serve = u)
        ∧ ((∃ e, v.serve.duty e ≠ none) → s.queue.length ≤ 16 → v.serve.queue.length = 16))

/-! ### Frames -/

/-- Acceptance: a frame is refused for its check sequence, its length or its tag; else ignored unless its destination is one of the five
rows and its source is not the nonzero station address; else taken (R79, R80, R81, R82). -/
def Obligations.FrameAcceptance : Prop :=
  ∀ (bytes : List Byte) (fcsGood : Bool) (s : State),
    let g := bytes.take (bytes.length - 4)
    let sound := fcsGood = true ∧ 64 ≤ bytes.length ∧ bytes.length ≤ 1522
    let wanted := fun d : LinkAddr => d = 0xFFFFFFFFFFFF#48 ∨ d = 0x333300000001#48
      ∨ (s.settings.station ≠ 0 ∧ d = s.settings.station)
      ∨ (∃ n, (s.slot n).state ∈ [SlotState.probing, .proxying, .waking, .dark] ∧ (s.slot n).client = some d)
      ∨ ∃ e b a, s.binding e = some b ∧ b.addr = .v6 a ∧ d = 0x3333FF#24 ++ a.extractLsb' 0 24
    let own := fun c : LinkAddr => s.settings.station ≠ 0 ∧ c = s.settings.station
    (s.accept bytes fcsGood = .refused ↔ ¬ sound ∨ tagTest s.settings.segment g = none)
    ∧ (∀ f, s.accept bytes fcsGood = .taken f ↔
        sound ∧ tagTest s.settings.segment g = some f ∧ wanted (destLink f) ∧ ¬ own (sourceLink f))
    ∧ (s.accept bytes fcsGood = .ignored ↔
        sound ∧ ∃ f, tagTest s.settings.segment g = some f ∧ ¬ (wanted (destLink f) ∧ ¬ own (sourceLink f)))

/-- The segment tag test: with the setting 0 an untagged frame passes as it is; with another setting a frame passes with exactly one tag of
that VLAN id, and its 4 tag bytes are removed (R80, R206). -/
def Obligations.SegmentTagTest : Prop :=
  ∀ (segment : BitVec 12) (g f : List Byte), 18 ≤ g.length →
    let tagged := fun l : List Byte => byteAt l 12 = 0x81#8 ∧ byteAt l 13 = 0x00#8
    (tagTest 0 g = some f ↔ ¬ tagged g ∧ f = g)
    ∧ (segment ≠ 0 → (tagTest segment g = some f ↔
        tagged g ∧ (byteAt g 14).extractLsb' 0 4 ++ byteAt g 15 = segment ∧ f = g.take 12 ++ g.drop 16 ∧ ¬ tagged f))

/-- The class of a frame, by the conditions on its fields in their order: a V4 resolution frame; a V6 neighbour message, dropped when its
checksum is wrong; UNICAST TO SLOT for the MIRRORED slot or the OWN slot's held entry that its destination names; OTHER. Frames without effect
beyond their count: a refused frame, an ignored one, a dropped one, one of class OTHER. FRAME_TAKEN completes on every frame (R79, R81, R82, R83,
R84, R85, R86, R87, R88, R93, R207). -/
def Obligations.FramesCountedOnly : Prop :=
  (∀ (s : State) (f : List Byte),
    let v4 := field f 12 2 = 0x0806 ∧ field f 14 2 = 1 ∧ field f 16 2 = 0x0800 ∧ field f 18 1 = 6 ∧ field f 19 1 = 4
      ∧ (field f 20 2 = 1 ∨ field f 20 2 = 2) ∧ 42 ≤ f.length
    let v6 := field f 12 2 = 0x86DD ∧ field f 20 1 = 58 ∧ field f 21 1 = 255 ∧ (field f 54 1 = 135 ∨ field f 54 1 = 136)
      ∧ field f 55 1 = 0 ∧ 24 ≤ field f 18 2 ∧ 54 + field f 18 2 ≤ f.length ∧ field f 62 1 ≠ 0xFF
      ∧ (field f 54 1 = 135 → field f 38 16 = field f 62 16
          ∨ field f 38 16 = 0xFF0200000000000000000001FF000000 + field f 62 16 % 2 ^ 24)
    let dest := BitVec.ofNat 48 (field f 0 6)
    let group := dest.getLsbD 40 = true
    let mirrored := fun n => (s.slot n).mode = some .mirrored ∧ (s.slot n).client = some dest
    let own := fun n => dest = s.settings.station ∧ ∃ a e b,
      (field f 12 2 = 0x0800 ∧ a = Addr.v4 (BitVec.ofNat 32 (field f 30 4))
        ∨ field f 12 2 = 0x86DD ∧ a = Addr.v6 (BitVec.ofNat 128 (field f 38 16)))
      ∧ s.lookup a = some e ∧ s.binding e = some b ∧ (b.claim = .held ∨ b.claim = .defended)
      ∧ b.owner = n ∧ (s.slot n).mode = some .own
    (v4 → s.classify f = .resolution (.v4 (decide (field f 20 2 = 1)) (BitVec.ofNat 32 (field f 28 4))
        (BitVec.ofNat 32 (field f 38 4))))
    ∧ (v6 → field f 56 2 = frameChecksum f → s.classify f = .resolution (.v6 (decide (field f 54 1 = 135))
        (BitVec.ofNat 128 (field f 22 16)) (BitVec.ofNat 128 (field f 62 16))))
    ∧ (v6 → field f 56 2 ≠ frameChecksum f → s.classify f = .dropped)
    ∧ (¬ v4 → ¬ v6 →
      (group → s.classify f = .other)
      ∧ (∀ n, ¬ group → mirrored n → (∀ m, mirrored m → m = n) → s.classify f = .unicast n)
      ∧ (∀ n, ¬ group → (∀ m, ¬ mirrored m) → own n → s.classify f = .unicast n)
      ∧ ((∀ n, ¬ mirrored n ∧ ¬ own n) → s.classify f = .other)))
  ∧ (∀ (f : List Byte) (off : Nat), field f off 0 = 0 ∧ ∀ n, off + n < f.length →
      field f off (n + 1) = field f off n * 256 + (byteAt f (off + n)).toNat)
  ∧ ∀ (bytes : List Byte) (fcsGood : Bool) (s : State), Settled s →
    (∃ t, exec (.frameTaken bytes fcsGood) s = .next t)
    ∧ (s.accept bytes fcsGood = .refused → exec (.frameTaken bytes fcsGood) s
        = .next { s with counters := { s.counters with framesRefused := satInc s.counters.framesRefused } })
    ∧ (s.accept bytes fcsGood = .ignored → exec (.frameTaken bytes fcsGood) s = .next s)
    ∧ ∀ f, s.accept bytes fcsGood = .taken f →
        (s.classify f = .other → exec (.frameTaken bytes fcsGood) s
          = .next { s with counters := { s.counters with framesTaken := satInc s.counters.framesTaken } })
        ∧ (s.classify f = .dropped → exec (.frameTaken bytes fcsGood) s
          = .next { s with counters := { s.counters with
              framesTaken := satInc s.counters.framesTaken
              checksumFailures := satInc s.counters.checksumFailures } })

/-- Claim evidence of either form against a TENTATIVE entry makes it LOST, raises CONFLICT and counts one claim; when it was the last TENTATIVE
entry, probing ends in the same event, in PROXYING with ACTIVE or in STAGED with ARM_FAILED, and no wake begins; the answer step follows, never
for the entry itself, then the transmitter's take, and nothing else changes (R35, R36, R37, R38, R63, R67, R103). -/
def Obligations.ClaimAgainstTentative : Prop :=
  ∀ (bytes : List Byte) (fcsGood : Bool) (s : State) (r : ResFrame) (form : ClaimForm) (e : Fin 96) (b : Binding),
    Settled s → Claims bytes fcsGood s r form e b → b.claim = .tentative → (s.slot b.owner).state = .probing →
    ∃ t, exec (.frameTaken bytes fcsGood) s = .next t
      ∧ t.binding e = some { b with claim := .lost, probeDue := none, defenceDue := none, duty := none }
      ∧ (∀ c, c ≠ e → MayOwe (s.entry c) (t.entry c))
      ∧ (∀ n, n ≠ b.owner → t.slot n = s.slot n)
      ∧ t.counters.framesTaken = satInc s.counters.framesTaken
      ∧ let x := { s.slot b.owner with
          attention := (s.slot b.owner).attention ||| 0x04#8
          counters := { (s.slot b.owner).counters with claimsSeen := satInc (s.slot b.owner).counters.claimsSeen } }
        let others := (s.slot b.owner).addresses.filter fun c => c != e
        ((∃ c ∈ others, s.claim c = some .tentative) → t.slot b.owner = x)
        ∧ ((∀ c ∈ others, s.claim c ≠ some .tentative) → (∃ c ∈ others, s.isHeld c = true) →
            t.slot b.owner = { x with state := .proxying, attention := x.attention ||| 0x01#8 })
        ∧ ((∀ c ∈ others, s.claim c ≠ some .tentative) → (∀ c ∈ others, s.isHeld c = false) →
            t.slot b.owner = { x with state := .staged, attention := x.attention ||| 0x02#8 })
        ∧ ∀ f, s.accept bytes fcsGood = .taken f →
          let u := ({ s with counters := { s.counters with framesTaken := satInc s.counters.framesTaken } }.modBinding e fun b => { b with
              claim := .lost, probeDue := none, defenceDue := none, duty := none }).setSlot b.owner (t.slot b.owner)
          ∃ w, Answered u f r (some e) w ∧ t = w.serve

/-- A first claim: a claim of use against a HELD entry whose slot is PROBING, PROXYING or WAKING makes it DEFENDED with a deadline one defence
window away and a DEFEND duty, raises DEFENDED and counts one claim; the slot stays in its state; the DEFEND duty is
offered, then the answer step is made, never for the entry itself, then the transmitter takes; a probe is no claim (R64, R66, R67, R100). -/
def Obligations.FirstClaim : Prop :=
  ∀ (bytes : List Byte) (fcsGood : Bool) (s : State) (r : ResFrame) (e : Fin 96) (b : Binding),
    Settled s → b.claim = .held → (s.slot b.owner).state.defends = true →
    (Claims bytes fcsGood s r .use e b →
      ∃ t, exec (.frameTaken bytes fcsGood) s = .next t
        ∧ HasBinding t e { b with
            claim := .defended, defenceDue := some (s.now + 1000 * s.settings.defenceWindow), duty := some .defend }
        ∧ (s.link = false → t.duty e = some .defend)
        ∧ (s.link = true → s.tx ≠ none → s.queue.length < 16 → t.queue[s.queue.length]? = some (.duty .defend e (s.entry e).gen))
        ∧ (∀ c, c ≠ e → MayOwe (s.entry c) (t.entry c))
        ∧ (∀ n, t.slot n = if n = b.owner then { s.slot n with
            attention := (s.slot n).attention ||| 0x08#8
            counters := { (s.slot n).counters with claimsSeen := satInc (s.slot n).counters.claimsSeen } } else s.slot n)
        ∧ ∀ f, s.accept bytes fcsGood = .taken f →
          let u := ({ s with counters := { s.counters with framesTaken := satInc s.counters.framesTaken } }.modBinding e fun b => { b with
              claim := .defended, defenceDue := some (s.now + 1000 * s.settings.defenceWindow)
              duty := some .defend }).setSlot b.owner { s.slot b.owner with
              attention := (s.slot b.owner).attention ||| 0x08#8
              counters := { (s.slot b.owner).counters with claimsSeen := satInc (s.slot b.owner).counters.claimsSeen } }
          ∃ v w, Offered u v [e] ∧ Answered v f r (some e) w ∧ t = w.serve)
    ∧ (Claims bytes fcsGood s r .probe e b →
      ∃ t, exec (.frameTaken bytes fcsGood) s = .next t ∧ t.slots = s.slots ∧ ∀ c, MayOwe (s.entry c) (t.entry c))

/-- A second claim: a claim of use against a DEFENDED entry makes it LOST, raises CONFLICT and counts one claim; under the WAKE policy a PROXYING
slot begins a wake with the cause LOSS in the same event; the answer step follows, never for the entry itself, then the transmitter's take, and
nothing else changes (R38, R39, R65, R67, R103, R131). -/
def Obligations.SecondClaim : Prop :=
  ∀ (bytes : List Byte) (fcsGood : Bool) (s : State) (r : ResFrame) (e : Fin 96) (b : Binding),
    Settled s → Claims bytes fcsGood s r .use e b → b.claim = .defended →
    (s.slot b.owner).state.defends = true →
    ∃ t, exec (.frameTaken bytes fcsGood) s = .next t
      ∧ t.binding e = some { b with claim := .lost, probeDue := none, defenceDue := none, duty := none }
      ∧ (∀ c, c ≠ e → MayOwe (s.entry c) (t.entry c))
      ∧ let x := { s.slot b.owner with
          attention := (s.slot b.owner).attention ||| 0x04#8
          counters := { (s.slot b.owner).counters with claimsSeen := satInc (s.slot b.owner).counters.claimsSeen } }
        let y := if x.loss = .wake ∧ x.state = .proxying then woken s.now .loss x else x
        (∀ n, t.slot n = if n = b.owner then y else s.slot n)
        ∧ ∀ f, s.accept bytes fcsGood = .taken f →
          let u := ({ s with counters := { s.counters with framesTaken := satInc s.counters.framesTaken } }.modBinding e fun b => { b with
              claim := .lost, probeDue := none, defenceDue := none, duty := none }).setSlot b.owner y
          ∃ w, Answered u f r (some e) w ∧ t = w.serve

/-- Every resolution frame: the claim step, then the answer step against the records it leaves, then the transmitter's take. The address a frame
claims and the address it asks for, by class; evidence that is ignored still forbids the answer for its entry; no entry found, a probe for a held
address of a PROBING, PROXYING or WAKING slot, and a frame from the entry's own client or the station are no evidence. A request without evidence
is answered for a HELD or DEFENDED target of a PROXYING or WAKING slot: the item made from the frame and the entry joins the queue while the link
is up and fewer than 12 items wait (and is sent at once by an idle transmitter), and is dropped, counted and REPLY_DROPPED raised otherwise; in
every other case of the target nothing follows (R61, R62, R66, R67, R89, R90, R91, R99). -/
def Obligations.RequestAnswered : Prop :=
  (∀ x y : BitVec 32, (ResFrame.v4 true x y).asked = some (.v4 y) ∧ (ResFrame.v4 false x y).asked = none
    ∧ (ResFrame.v4 true x y).claimed = (if x = 0 then some (.v4 y, .probe) else some (.v4 x, .use))
    ∧ (ResFrame.v4 false x y).claimed = (if x = 0 then none else some (.v4 x, .use))
    ∧ ∀ peer e gen, (ResFrame.v4 true x y).answer peer e gen = some (.answerV4 e gen peer x))
  ∧ (∀ x y : BitVec 128, (ResFrame.v6 true x y).asked = some (.v6 y) ∧ (ResFrame.v6 false x y).asked = none
    ∧ (ResFrame.v6 true x y).claimed = (if x = 0 then some (.v6 y, .probe) else some (.v6 x, .use))
    ∧ (ResFrame.v6 false x y).claimed = some (.v6 y, .use)
    ∧ ∀ peer e gen, (ResFrame.v6 true x y).answer peer e gen =
        some (if x = 0 then .answerV6 e gen peer none false else .answerV6 e gen peer (some x) true))
  ∧ ∀ (bytes : List Byte) (fcsGood : Bool) (s : State) (f : List Byte) (r : ResFrame),
    Settled s → s.accept bytes fcsGood = .taken f → s.classify f = .resolution r →
    let u := { s with counters := { s.counters with framesTaken := satInc s.counters.framesTaken } }
    let claim := u.claimStep (sourceLink f) r
    let harmless := ∀ c form e b, r.claimed = some (c, form) → s.lookup c = some e → s.binding e = some b →
      (s.slot b.owner).client = some (sourceLink f) ∨ (s.settings.station ≠ 0 ∧ sourceLink f = s.settings.station)
      ∨ (form = .probe ∧ (b.claim = .held ∨ b.claim = .defended) ∧ (s.slot b.owner).state.defends = true)
    (∃ w, Answered claim.1 f r claim.2 w ∧ exec (.frameTaken bytes fcsGood) s = .next w.serve)
    ∧ (harmless → claim = (u, none))
    ∧ (∀ form e b, Claims bytes fcsGood s r form e b →
        ((b.claim = .quiet ∨ b.claim = .lost
            ∨ ((b.claim = .held ∨ b.claim = .defended) ∧ (s.slot b.owner).state = .dark)) → claim = (u, some e))
        ∧ (b.claim = .tentative ∨ (form = .use ∧ (s.slot b.owner).state.defends = true) → claim.2 = some e))
    ∧ ∀ a, r.asked = some a → harmless →
      let served := ∃ e b, s.lookup a = some e ∧ s.binding e = some b ∧ (b.claim = .held ∨ b.claim = .defended)
        ∧ ((s.slot b.owner).state = .proxying ∨ (s.slot b.owner).state = .waking)
      (¬ served → exec (.frameTaken bytes fcsGood) s = .next u)
      ∧ ∀ e item, served → s.lookup a = some e → r.answer (sourceLink f) e (s.entry e).gen = some item →
          (s.link = true → s.queue.length < 12 → s.tx ≠ none →
            exec (.frameTaken bytes fcsGood) s = .next { u with queue := s.queue ++ [item] })
          ∧ (s.link = true → s.tx = none → (∀ c, s.duty c = none) →
            exec (.frameTaken bytes fcsGood) s = .next { u with
              tx := some { kind := item.kind, entry := e, gen := (s.entry e).gen, frame := s.buildFrame item } })
          ∧ (¬ (s.link = true ∧ s.queue.length < 12) → exec (.frameTaken bytes fcsGood) s = .next { u with
              counters := { u.counters with answersDropped := satInc s.counters.answersDropped }
              deviceAttention := s.deviceAttention ||| 0x08#8 })

/-- A frame UNICAST TO SLOT: in PROXYING the first matching pattern of the list starts the wake and counts a wake match, in WAKING a match counts
a late match, and nothing else follows (R125, R126, R127, R128). -/
def Obligations.MatchWakesOrCountsLate : Prop :=
  ∀ (bytes : List Byte) (fcsGood : Bool) (s : State) (f : List Byte) (n : Fin 16),
    Settled s → s.accept bytes fcsGood = .taken f → s.classify f = .unicast n →
    let u := { s with counters := { s.counters with framesTaken := satInc s.counters.framesTaken } }
    let matching := fun p : Fin 32 => ∃ d, (s.pattern p).definition = some d ∧ d.hits f = true
    (((s.slot n).state ≠ .proxying ∧ (s.slot n).state ≠ .waking) ∨ (∀ p ∈ (s.slot n).patterns, ¬ matching p) →
        exec (.frameTaken bytes fcsGood) s = .next u)
    ∧ ∀ p before after, (s.slot n).patterns = before ++ p :: after → (∀ q ∈ before, ¬ matching q) → matching p →
        ((s.slot n).state = .proxying → exec (.frameTaken bytes fcsGood) s =
          .next (u.setSlot n (woken s.now (.pattern p) { s.slot n with counters := { (s.slot n).counters with
            wakeMatches := satInc (s.slot n).counters.wakeMatches } })))
        ∧ ((s.slot n).state = .waking → exec (.frameTaken bytes fcsGood) s =
          .next (u.setSlot n { s.slot n with counters := { (s.slot n).counters with
            lateMatches := satInc (s.slot n).counters.lateMatches } }))

/-! ### Timers -/

/-- A probe timer expiry: with fewer probes sent than the probe count a new PROBE duty; otherwise HELD, with an ANNOUNCE duty in OWN mode, and
probing ends when no entry of the slot is TENTATIVE any more; the duty is offered, and the transmitter takes.
An expiry commanded before its count is taken there, every count up to it passing with its own events taken (R28; log 5);
a stopped timer has no expiry (R35, R36, R59, R100, R103, R130, R209; log 4). -/
def Obligations.ProbeTimerExpires : Prop :=
  ∀ (e : Fin 96) (s : State), Settled s →
    ((∀ b d, s.binding e = some b → b.claim = .tentative → b.probeDue ≠ some d) → exec (.probeTimerExpiry e) s = .next s)
    ∧ ∀ b d, s.binding e = some b → b.claim = .tentative → b.probeDue = some d →
        TakenInCount s d (.probeTimerExpiry e) ∧ (d ≤ s.now →
        (b.probesSent < s.settings.probeCount →
          let u := s.modBinding e fun b => { b with probeDue := none, duty := some .probe }
          ∃ w, Offered u w [e] ∧ exec (.probeTimerExpiry e) s = .next w.serve ∧ Served u w)
        ∧ (s.settings.probeCount ≤ b.probesSent →
          let w := s.modBinding e fun b => { b with claim := .held, probeDue := none
                                                    duty := if (s.slot b.owner).mode = some .own then some .announce else b.duty }
          let ends := (s.slot b.owner).state = .probing ∧ e ∈ (s.slot b.owner).addresses
            ∧ ∀ c ∈ (s.slot b.owner).addresses, c ≠ e → s.claim c ≠ some .tentative
          let u := if ends then w.setSlot b.owner { s.slot b.owner with
              state := .proxying, attention := (s.slot b.owner).attention ||| 0x01#8 } else w
          (ends ∨ (s.slot b.owner).state ≠ .probing
            ∨ ∃ c ∈ (s.slot b.owner).addresses, c ≠ e ∧ s.claim c = some .tentative) →
          ∃ w, Offered u w [e] ∧ exec (.probeTimerExpiry e) s = .next w.serve ∧ Served u w))

/-- A defence deadline reached returns a DEFENDED entry to HELD and clears a pending DEFEND; a pulse timer expiry deasserts WAKE_n and nothing
else; without a deadline or a running timer there is no event; an event commanded before its count is taken there, every count up to it
passing with its own events taken (R28, R68, R130, R132, R209; log 4, log 5). -/
def Obligations.DeadlineAndPulseExpire : Prop :=
  (∀ (e : Fin 96) (s : State), Settled s →
    ((∀ b d, s.binding e = some b → b.claim = .defended → b.defenceDue ≠ some d) →
      exec (.defenceDeadlineReached e) s = .next s)
    ∧ ∀ b d, s.binding e = some b → b.claim = .defended → b.defenceDue = some d →
        TakenInCount s d (.defenceDeadlineReached e) ∧ (d ≤ s.now →
        exec (.defenceDeadlineReached e) s = .next (s.modBinding e fun b => { b with
          claim := .held, defenceDue := none, duty := if b.duty = some Duty.defend then none else b.duty })))
  ∧ ∀ (n : Fin 16) (s : State), Settled s →
    ((s.slot n).pulseDue = none → exec (.pulseTimerExpiry n) s = .next s)
    ∧ ∀ d, (s.slot n).pulseDue = some d → TakenInCount s d (.pulseTimerExpiry n) ∧ (d ≤ s.now →
        exec (.pulseTimerExpiry n) s =
          .next (s.setSlot n { s.slot n with wakeLine := false, pulseDue := none }))

/-- A wake timeout expiry in WAKING: with attempts left a further attempt, without WAKE_SENT; otherwise DARK with WAKE_FAILED, WAKE_n and the
timers off, DEFENDED entries back to HELD without deadline and DEFEND duty, cause and attempts kept (R41, R42, R131, R133, R134);
without a running timer there is no event; an expiry commanded before its count is taken there, every count up to it passing with its own
events taken, the end of the pulse among them (R28, R132, R209; log 4, log 5). -/
def Obligations.WakeTimeoutExpires : Prop :=
  ∀ (n : Fin 16) (s : State), Settled s →
    ((s.slot n).timeoutDue = none ∨ (s.slot n).state ≠ .waking → exec (.wakeTimeoutExpiry n) s = .next s)
    ∧ ∀ d, (s.slot n).timeoutDue = some d → (s.slot n).state = .waking →
        TakenInCount s d (.wakeTimeoutExpiry n) ∧ (d ≤ s.now →
        ((s.slot n).attempts < (s.slot n).wakeRetries + 1 → exec (.wakeTimeoutExpiry n) s =
          .next (s.setSlot n (attempted s.now { s.slot n with attempts := (s.slot n).attempts + 1 })))
        ∧ ((s.slot n).wakeRetries + 1 ≤ (s.slot n).attempts → exec (.wakeTimeoutExpiry n) s =
          .next ((s.modBindings (s.slot n).addresses fun b =>
            if b.claim = .defended then
              { b with claim := .held, defenceDue := none, duty := if b.duty = some .defend then none else b.duty }
            else b).setSlot n { s.slot n with
              state := .dark, wakeLine := false, pulseDue := none, timeoutDue := none
              attention := (s.slot n).attention ||| 0x20#8 })))

/-! ### The queue and the transmitter -/

/-- A completed frame is counted, and its check sequence ends good on the wire; a PROBE's completion counts as a probe sent when the generation
is the item's, the entry TENTATIVE and its timer stopped; answers sent is counted for the owner while the generation is the item's; then the
idle transmitter takes the next head item, after a waiting PROBE duty has been cleared (R58, R103, R111, R147, R148). An idle transmitter
completes nothing (log 4); the frame port's output is the model's view (log 12). -/
def Obligations.TransmissionCompletes : Prop :=
  ∀ s : State, s.resetAsserted = false →
    (s.tx = none → s.canTake = false → exec .transmissionComplete s = .next s)
    ∧ ∀ x, s.tx = some x → (∀ d, x.kind = .duty d → d ≠ .handback) →
        let c := s.counters
        let ended := { s with tx := none, lastEnded := some { frame := x.frame, checkGood := true } }
        ∃ t, exec .transmissionComplete s = .next t
          ∧ (∀ d, x.kind = .duty d → d ≠ .probe →
              t = State.serve { ended with counters := { c with dutiesTransmitted := satInc c.dutiesTransmitted } })
          ∧ (x.kind = .duty .probe →
              let u := { ended with counters := { c with dutiesTransmitted := satInc c.dutiesTransmitted } }
              (∀ b, s.binding x.entry = some b → (s.entry x.entry).gen = x.gen → b.claim = .tentative → b.probeDue = none →
                t = (u.modBinding x.entry fun b => { b with
                  probesSent := b.probesSent + 1
                  probeDue := some (s.now + s.settings.probeInterval)
                  duty := if b.duty = some .probe then none else b.duty }).serve)
              ∧ ((∀ b, s.binding x.entry = some b → (s.entry x.entry).gen = x.gen → b.claim = .tentative →
                  b.probeDue ≠ none) → t = u.serve))
          ∧ (x.kind = .answerV4 ∨ x.kind = .answerV6 →
              let u := { ended with counters := { c with answersTransmitted := satInc c.answersTransmitted } }
              (∀ b, s.binding x.entry = some b → (s.entry x.entry).gen = x.gen →
                t = (u.setSlot b.owner { s.slot b.owner with counters := { (s.slot b.owner).counters with
                  answersSent := satInc (s.slot b.owner).counters.answersSent } }).serve)
              ∧ ((∀ b, s.binding x.entry = some b → (s.entry x.entry).gen ≠ x.gen) → t = u.serve))

/-- A completed HANDBACK is counted, and its check sequence ends good on the wire; one of the release in progress takes its entry out of the
release handback set; the last one ends the release, with OK or, under the discard mark, PARTIAL, and the slot becomes VACANT; any other is only
counted; then the idle transmitter takes the next head item (R52, R53, R54, R103, R111, R187; log 12). -/
def Obligations.HandbackCompletes : Prop :=
  ∀ (s : State) (x : Sending), s.resetAsserted = false → s.tx = some x → x.kind = .duty .handback →
    let u := { s with
      tx := none, lastEnded := some { frame := x.frame, checkGood := true }
      counters := { s.counters with dutiesTransmitted := satInc s.counters.dutiesTransmitted } }
    ∃ t, exec .transmissionComplete s = .next t
      ∧ ((∀ r, s.mailbox.state = .executing r → (s.entry x.entry).gen = x.gen → x.entry ∉ r.set) →
          ReleaseLaw s → t = u.serve)
      ∧ ∀ r, s.mailbox.state = .executing r → (s.entry x.entry).gen = x.gen → x.entry ∈ r.set →
          ReleaseLaw s → RecordsLaw s →
          (2 ≤ (s.slot r.slot).outstanding →
            t = State.serve { u.setSlot r.slot { s.slot r.slot with outstanding := (s.slot r.slot).outstanding - 1 } with
              mailbox := { s.mailbox with state := .executing { r with set := r.set.erase x.entry } } })
          ∧ ((s.slot r.slot).outstanding = 1 →
            ∃ w, t = w.serve ∧ Vacated u w r.slot ∧ (∀ e, e ∉ (s.slot r.slot).addresses → w.entry e = s.entry e)
              ∧ w = { u with
                  slots := w.slots, entries := w.entries, index := w.index, patterns := w.patterns
                  mailbox := (s.complete (if r.mark then .partialEnd else .ok)
                    [countByte r.slot.val, 0x02#8, countByte (s.slot r.slot).addresses.length, 0x00#8]).mailbox })

/-- The transmitter takes the head item: its place goes to the lowest-numbered waiting duty, if any; a valid item is sent with the frame built
from the records; an invalid one is discarded and counted, and the next is taken. With nothing to take ITEM_TAKE changes nothing; `State.serve`
is this take (R101, R103, R104, R105; log 4, log 8). -/
def Obligations.HeadItemTaken : Prop :=
  ∀ s : State, s.resetAsserted = false →
    exec .itemTake s = .next s.serve
    ∧ (s.canTake = false → exec .itemTake s = .next s)
    ∧ ∀ item rest v, s.tx = none → s.link = true → s.queue = item :: rest →
        ((∀ e, s.duty e = none) ∧ v = { s with queue := rest }
          ∨ ∃ e d, s.duty e = some d ∧ (∀ c, c < e → s.duty c = none) ∧ rest.length < 16
            ∧ v = { s.modBinding e (fun b => { b with duty := none }) with
                queue := rest ++ [.duty d e (s.entry e).gen] }) →
        let fits := ∃ b, s.binding item.entry = some b ∧ (s.entry item.entry).gen = item.gen
          ∧ match item.kind with
            | .answerV4 => (b.claim = .held ∨ b.claim = .defended)
                ∧ ((s.slot b.owner).state = .proxying ∨ (s.slot b.owner).state = .waking)
            | .answerV6 => (b.claim = .held ∨ b.claim = .defended)
                ∧ ((s.slot b.owner).state = .proxying ∨ (s.slot b.owner).state = .waking)
            | .duty .probe => b.claim = .tentative
            | .duty .announce => b.claim = .held ∨ b.claim = .defended
            | .duty .defend => b.claim = .defended
            | .duty .handback => b.claim = .quiet ∧ ((s.slot b.owner).state = .staged
                ∨ (s.slot b.owner).state = .armed ∨ (s.slot b.owner).state = .releasing)
        (fits → exec .itemTake s = .next { v with
          tx := some { kind := item.kind, entry := item.entry, gen := item.gen, frame := s.buildFrame item } })
        ∧ (¬ fits → exec .itemTake s = exec .itemTake { v with
          counters := { s.counters with itemsDiscarded := satInc s.counters.itemsDiscarded } })

/-- PENDING_DUTY_TAKEN: with the link up, the transmitter sending and a free place, the lowest-numbered waiting duty becomes the item at the tail
and is no longer pending; without a free place, a duty or the link nothing changes (R98, R100, R101; log 4). -/
def Obligations.PendingDutyTakesPlace : Prop :=
  ∀ s : State, Settled s →
    (s.link = false ∨ 16 ≤ s.queue.length ∨ (∀ e, s.duty e = none) → exec .pendingDutyTaken s = .next s)
    ∧ ∀ e d, s.link = true → s.queue.length < 16 → s.tx ≠ none → s.duty e = some d → (∀ c, c < e → s.duty c = none) →
        exec .pendingDutyTaken s = .next { s.modBinding e (fun b => { b with duty := none }) with
          queue := s.queue ++ [.duty d e (s.entry e).gen] }

/-! ### Functions of the tables and of frames -/

/-- The bucket of a key: the exclusive-or of the address bytes, modulo 64; for V6 the exclusive-or with 20h first. A V4 and a V6 key whose bytes
give the same X select buckets 32 apart; the bucket depends on family and address only (R18). -/
def Obligations.BucketOfKey : Prop :=
  (∀ a : BitVec 32, (bucketOf (.v4 a)).val =
      (a.extractLsb' 24 8 ^^^ a.extractLsb' 16 8 ^^^ a.extractLsb' 8 8 ^^^ a.extractLsb' 0 8).toNat % 64)
  ∧ (∀ a : BitVec 128, (bucketOf (.v6 a)).val =
      (((List.range 16).foldl (fun x k => x ^^^ a.extractLsb' (8 * k) 8) 0#8) ^^^ 0x20#8).toNat % 64)
  ∧ ∀ (a : BitVec 32) (c : BitVec 128),
      (a.extractLsb' 24 8 ^^^ a.extractLsb' 16 8 ^^^ a.extractLsb' 8 8 ^^^ a.extractLsb' 0 8)
        = (List.range 16).foldl (fun x k => x ^^^ c.extractLsb' (8 * k) 8) 0#8 →
      ((bucketOf (.v4 a)).val + 32) % 64 = (bucketOf (.v6 c)).val

/-- One pattern matches one frame when the frame holds its bytes and every compared position agrees (R124). -/
def Obligations.PatternMatchesFrame : Prop :=
  ∀ (d : PatternDef) (f : List Byte), d.length ≤ 32 →
    (d.hits f = true ↔ d.offset + d.length ≤ f.length
      ∧ ∀ i : Fin 32, i.val < d.length → d.mask.getLsbD i.val = true → f[d.offset + i.val]? = some d.value[i])

/-- Frames sent: the fields of the frame built for each item kind and family, in OWN and MIRRORED mode, with the segment tag inserted after the
source link address; of an answer whose entry has changed family only the address that must fit is free (R210; log 17). A peer protocol
address that is present is answered at the peer link address, whatever it is (R108; log 18); every other V6 frame goes to the link destination
of its multicast IPv6 destination, 33:33 and its last 4 bytes (R205). The intake reads frames sent back: a V4 frame as the resolution frame its
fields spell, a V6 frame past the structural conditions and the checksum test (R4, R84, R85, R106, R107, R108, R109, R110, R204, R205, R207, R208). -/
def Obligations.SentFramesReadBack : Prop :=
  (∀ (s : State) (item : Item) (b : Binding) (mode : AnswerMode) (client : LinkAddr), s.binding item.entry = some b →
    (s.slot b.owner).mode = some mode → (s.slot b.owner).client = some client →
    let answer := if mode = .own then s.settings.station else client
    let f := s.frameOf item b
    let bound := if item.kind = .duty .handback then client else answer
    let V4Answer := fun (peerLink : LinkAddr) (peer sender : BitVec 32) => V4Fields f peerLink answer 2 answer sender peerLink peer
    let V6Answer := fun (peerLink : LinkAddr) (peer : Option (BitVec 128)) (solicited : Bool) (a : BitVec 128) =>
      V6Fields f (if peer = none then 0x333300000001#48 else peerLink) answer a (peer.getD 0xFF020000000000000000000000000001#128)
        136 (if solicited then 0x60 else 0x20) a (some answer)
    s.buildFrame item = (if s.settings.segment = 0 then f
        else f.take 12 ++ [0x81#8, 0x00#8] ++ toBytesBE 2 s.settings.segment.toNat ++ f.drop 12)
    ∧ (∀ a, b.addr = .v4 a →
        (item.kind = .duty .probe → V4Fields f 0xFFFFFFFFFFFF#48 client 1 client 0 0 a)
        ∧ (∀ d, item.kind = .duty d → d ≠ .probe → V4Fields f 0xFFFFFFFFFFFF#48 bound 1 bound a 0 a)
        ∧ (∀ e g pl p, item = .answerV4 e g pl p → V4Answer pl p a)
        ∧ ∀ e g pl p sol, item = .answerV6 e g pl p sol → ∃ x, V6Answer pl p sol x)
    ∧ ∀ a, b.addr = .v6 a →
        (item.kind = .duty .probe → V6Fields f (0x3333FF#24 ++ a.extractLsb' 0 24) client 0
          (0xFF0200000000000000000001FF#104 ++ a.extractLsb' 0 24) 135 0 a none)
        ∧ (∀ d, item.kind = .duty d → d ≠ .probe →
          V6Fields f 0x333300000001#48 bound a 0xFF020000000000000000000000000001#128 136 0x20 a (some bound))
        ∧ (∀ e g pl p sol, item = .answerV6 e g pl p sol → V6Answer pl p sol a)
        ∧ ((∃ d, item.kind = .duty d) ∨ (∃ e g pl sol, item = .answerV6 e g pl none sol) →
          field f 0 6 = 0x333300000000 + field f 50 4)
        ∧ ∀ e g pl p, item = .answerV4 e g pl p → ∃ x, V4Answer pl p x)
  ∧ (∀ (dest src sh th : LinkAddr) (sp tp : BitVec 32) (request : Bool),
    let f := v4Frame dest src (if request then 1 else 2) sh sp th tp
    f.length = 60 ∧ destLink f = dest ∧ sourceLink f = src
      ∧ isV4Resolution f = true ∧ readV4Resolution f = .v4 request sp tp)
  ∧ (∀ (client : LinkAddr) (a : BitVec 128), a.toNat / 2 ^ 120 ≠ 0xFF →
    let f := probeFrame client (.v6 a)
    f.length = 78 ∧ destLink f = solicitedLink a ∧ sourceLink f = client
      ∧ isV6Neighbour f = true ∧ checksumGood f = true ∧ readV6Neighbour f = .v6 true 0 a)
  ∧ (∀ (answer peerLink : LinkAddr) (peer : Option (BitVec 128)) (solicited : Bool) (a : BitVec 128), a.toNat / 2 ^ 120 ≠ 0xFF →
    let f := answerV6Frame answer peerLink peer solicited (.v6 a)
    f.length = 86 ∧ destLink f = (if peer = none then 0x333300000001#48 else peerLink) ∧ sourceLink f = answer
      ∧ isV6Neighbour f = true ∧ checksumGood f = true ∧ readV6Neighbour f = .v6 false a a)
  ∧ ∀ (bound : LinkAddr) (a : BitVec 128), a.toNat / 2 ^ 120 ≠ 0xFF →
    let f := announcementFrame bound (.v6 a)
    f.length = 86 ∧ destLink f = 0x333300000001#48 ∧ sourceLink f = bound
      ∧ isV6Neighbour f = true ∧ checksumGood f = true ∧ readV6Neighbour f = .v6 false a a

/-! ### Laws that every step keeps -/

/-- Every step leaves nothing that the transmitter could take, and keeps the queue's law, the tie between waiting duties and a full queue, and
the empty queue and idle transmitter of a link that is down (R97, R102, R103, R114, R116). -/
def Obligations.QueueLawsKept : Prop :=
  (
    ∀ s t : State, TakeLaw s → step s = .next t → TakeLaw t)
  ∧
    ∀ s t : State, QueueLaw s → step s = .next t → QueueLaw t

/-- Every step keeps: EXECUTING exactly while one slot is RELEASING, with its outstanding handbacks (R8, R51). -/
def Obligations.ReleaseLawKept : Prop :=
  ∀ s t : State, ReleaseLaw s → step s = .next t → ReleaseLaw t

/-- Every step from records that fulfil the laws of entries and claims keeps the law of client and station addresses (R3, R26). -/
def Obligations.HostLawKept : Prop :=
  ∀ s t : State, RecordsLaw s → ClaimLaw s → HostLaw s → step s = .next t → HostLaw t

/-- Every step keeps WAKE_n asserted and wake timers running only in WAKING, the pulse timer the first to expire, and the settings, the policies and the attention sets in their
ranges (R1, R7, R25, R31, R130, R132, R140, R199). -/
def Obligations.WakeAndRangeLawsKept : Prop :=
  (
    ∀ s t : State, PolicyLaws s → WakeLaws s → step s = .next t → WakeLaws t)
  ∧
    ∀ s t : State, SettingsLaw s → PolicyLaws s → AttentionLaw s → step s = .next t →
      SettingsLaw t ∧ PolicyLaws t ∧ AttentionLaw t

/-- Every step keeps the law of reference counts and pattern lists (R12, R23). -/
def Obligations.PatternLawKept : Prop :=
  ∀ s t : State, PatternLaw s → step s = .next t → PatternLaw t

/-- Every step keeps the laws of entries, lists and index ways (R12, R17). -/
def Obligations.RecordsLawKept : Prop :=
  ∀ s t : State, RecordsLaw s → step s = .next t → RecordsLaw t

/-- Every step keeps the tie between claim states, slot states, timers and duties (R14, R32, R35). -/
def Obligations.ClaimLawKept : Prop :=
  ∀ s t : State, RecordsLaw s → SettingsLaw s → ClaimLaw s → step s = .next t → ClaimLaw t
end

