-- ==== Sys2Proof/Laws/State.lean ====
section
/-! SUPPORT. Laws/State.lean: what each update of the state leaves alone, one lemma for each field and each view. -/

namespace Sys2Proof.Machine

variable (s : State)

/-! ### setSlot -/

@[simp] theorem setSlot_lines (n : Fin 16) (x : Slot) : (s.setSlot n x).lines = s.lines := (rfl)
@[simp] theorem setSlot_entries (n : Fin 16) (x : Slot) : (s.setSlot n x).entries = s.entries := (rfl)
@[simp] theorem setSlot_index (n : Fin 16) (x : Slot) : (s.setSlot n x).index = s.index := (rfl)
@[simp] theorem setSlot_patterns (n : Fin 16) (x : Slot) : (s.setSlot n x).patterns = s.patterns := (rfl)
@[simp] theorem setSlot_settings (n : Fin 16) (x : Slot) : (s.setSlot n x).settings = s.settings := (rfl)
@[simp] theorem setSlot_deviceAttention (n : Fin 16) (x : Slot) : (s.setSlot n x).deviceAttention = s.deviceAttention := (rfl)
@[simp] theorem setSlot_counters (n : Fin 16) (x : Slot) : (s.setSlot n x).counters = s.counters := (rfl)
@[simp] theorem setSlot_queue (n : Fin 16) (x : Slot) : (s.setSlot n x).queue = s.queue := (rfl)
@[simp] theorem setSlot_tx (n : Fin 16) (x : Slot) : (s.setSlot n x).tx = s.tx := (rfl)
@[simp] theorem setSlot_link (n : Fin 16) (x : Slot) : (s.setSlot n x).link = s.link := (rfl)
@[simp] theorem setSlot_lastEnded (n : Fin 16) (x : Slot) : (s.setSlot n x).lastEnded = s.lastEnded := (rfl)
@[simp] theorem setSlot_mailbox (n : Fin 16) (x : Slot) : (s.setSlot n x).mailbox = s.mailbox := (rfl)
@[simp] theorem setSlot_port (n : Fin 16) (x : Slot) : (s.setSlot n x).port = s.port := (rfl)
@[simp] theorem setSlot_now (n : Fin 16) (x : Slot) : (s.setSlot n x).now = s.now := (rfl)
@[simp] theorem setSlot_resetAsserted (n : Fin 16) (x : Slot) : (s.setSlot n x).resetAsserted = s.resetAsserted := (rfl)
@[simp] theorem setSlot_pending (n : Fin 16) (x : Slot) : (s.setSlot n x).pending = s.pending := (rfl)
@[simp] theorem setSlot_line (n : Fin 16) (x : Slot) (m : Fin 16) : (s.setSlot n x).line m = s.line m := (rfl)
@[simp] theorem setSlot_entry (n : Fin 16) (x : Slot) (c : Fin 96) : (s.setSlot n x).entry c = s.entry c := (rfl)
@[simp] theorem setSlot_binding (n : Fin 16) (x : Slot) (c : Fin 96) : (s.setSlot n x).binding c = s.binding c := (rfl)
@[simp] theorem setSlot_claim (n : Fin 16) (x : Slot) (c : Fin 96) : (s.setSlot n x).claim c = s.claim c := (rfl)
@[simp] theorem setSlot_duty (n : Fin 16) (x : Slot) (c : Fin 96) : (s.setSlot n x).duty c = s.duty c := (rfl)
@[simp] theorem setSlot_pattern (n : Fin 16) (x : Slot) (c : Fin 32) : (s.setSlot n x).pattern c = s.pattern c := (rfl)
@[simp] theorem setSlot_bucket (n : Fin 16) (x : Slot) (c : Fin 64) : (s.setSlot n x).bucket c = s.bucket c := (rfl)

/-! ### modSlot -/

@[simp] theorem modSlot_lines (n : Fin 16) (f : Slot → Slot) : (s.modSlot n f).lines = s.lines := (rfl)
@[simp] theorem modSlot_entries (n : Fin 16) (f : Slot → Slot) : (s.modSlot n f).entries = s.entries := (rfl)
@[simp] theorem modSlot_index (n : Fin 16) (f : Slot → Slot) : (s.modSlot n f).index = s.index := (rfl)
@[simp] theorem modSlot_patterns (n : Fin 16) (f : Slot → Slot) : (s.modSlot n f).patterns = s.patterns := (rfl)
@[simp] theorem modSlot_settings (n : Fin 16) (f : Slot → Slot) : (s.modSlot n f).settings = s.settings := (rfl)
@[simp] theorem modSlot_deviceAttention (n : Fin 16) (f : Slot → Slot) : (s.modSlot n f).deviceAttention = s.deviceAttention := (rfl)
@[simp] theorem modSlot_counters (n : Fin 16) (f : Slot → Slot) : (s.modSlot n f).counters = s.counters := (rfl)
@[simp] theorem modSlot_queue (n : Fin 16) (f : Slot → Slot) : (s.modSlot n f).queue = s.queue := (rfl)
@[simp] theorem modSlot_tx (n : Fin 16) (f : Slot → Slot) : (s.modSlot n f).tx = s.tx := (rfl)
@[simp] theorem modSlot_link (n : Fin 16) (f : Slot → Slot) : (s.modSlot n f).link = s.link := (rfl)
@[simp] theorem modSlot_lastEnded (n : Fin 16) (f : Slot → Slot) : (s.modSlot n f).lastEnded = s.lastEnded := (rfl)
@[simp] theorem modSlot_mailbox (n : Fin 16) (f : Slot → Slot) : (s.modSlot n f).mailbox = s.mailbox := (rfl)
@[simp] theorem modSlot_port (n : Fin 16) (f : Slot → Slot) : (s.modSlot n f).port = s.port := (rfl)
@[simp] theorem modSlot_now (n : Fin 16) (f : Slot → Slot) : (s.modSlot n f).now = s.now := (rfl)
@[simp] theorem modSlot_resetAsserted (n : Fin 16) (f : Slot → Slot) : (s.modSlot n f).resetAsserted = s.resetAsserted := (rfl)
@[simp] theorem modSlot_pending (n : Fin 16) (f : Slot → Slot) : (s.modSlot n f).pending = s.pending := (rfl)
@[simp] theorem modSlot_line (n : Fin 16) (f : Slot → Slot) (m : Fin 16) : (s.modSlot n f).line m = s.line m := (rfl)
@[simp] theorem modSlot_entry (n : Fin 16) (f : Slot → Slot) (c : Fin 96) : (s.modSlot n f).entry c = s.entry c := (rfl)
@[simp] theorem modSlot_binding (n : Fin 16) (f : Slot → Slot) (c : Fin 96) : (s.modSlot n f).binding c = s.binding c := (rfl)
@[simp] theorem modSlot_claim (n : Fin 16) (f : Slot → Slot) (c : Fin 96) : (s.modSlot n f).claim c = s.claim c := (rfl)
@[simp] theorem modSlot_duty (n : Fin 16) (f : Slot → Slot) (c : Fin 96) : (s.modSlot n f).duty c = s.duty c := (rfl)
@[simp] theorem modSlot_pattern (n : Fin 16) (f : Slot → Slot) (c : Fin 32) : (s.modSlot n f).pattern c = s.pattern c := (rfl)
@[simp] theorem modSlot_bucket (n : Fin 16) (f : Slot → Slot) (c : Fin 64) : (s.modSlot n f).bucket c = s.bucket c := (rfl)

/-! ### raiseSlot -/

@[simp] theorem raiseSlot_lines (n : Fin 16) (k : SlotKind) : (s.raiseSlot n k).lines = s.lines := (rfl)
@[simp] theorem raiseSlot_entries (n : Fin 16) (k : SlotKind) : (s.raiseSlot n k).entries = s.entries := (rfl)
@[simp] theorem raiseSlot_index (n : Fin 16) (k : SlotKind) : (s.raiseSlot n k).index = s.index := (rfl)
@[simp] theorem raiseSlot_patterns (n : Fin 16) (k : SlotKind) : (s.raiseSlot n k).patterns = s.patterns := (rfl)
@[simp] theorem raiseSlot_settings (n : Fin 16) (k : SlotKind) : (s.raiseSlot n k).settings = s.settings := (rfl)
@[simp] theorem raiseSlot_deviceAttention (n : Fin 16) (k : SlotKind) : (s.raiseSlot n k).deviceAttention = s.deviceAttention := (rfl)
@[simp] theorem raiseSlot_counters (n : Fin 16) (k : SlotKind) : (s.raiseSlot n k).counters = s.counters := (rfl)
@[simp] theorem raiseSlot_queue (n : Fin 16) (k : SlotKind) : (s.raiseSlot n k).queue = s.queue := (rfl)
@[simp] theorem raiseSlot_tx (n : Fin 16) (k : SlotKind) : (s.raiseSlot n k).tx = s.tx := (rfl)
@[simp] theorem raiseSlot_link (n : Fin 16) (k : SlotKind) : (s.raiseSlot n k).link = s.link := (rfl)
@[simp] theorem raiseSlot_lastEnded (n : Fin 16) (k : SlotKind) : (s.raiseSlot n k).lastEnded = s.lastEnded := (rfl)
@[simp] theorem raiseSlot_mailbox (n : Fin 16) (k : SlotKind) : (s.raiseSlot n k).mailbox = s.mailbox := (rfl)
@[simp] theorem raiseSlot_port (n : Fin 16) (k : SlotKind) : (s.raiseSlot n k).port = s.port := (rfl)
@[simp] theorem raiseSlot_now (n : Fin 16) (k : SlotKind) : (s.raiseSlot n k).now = s.now := (rfl)
@[simp] theorem raiseSlot_resetAsserted (n : Fin 16) (k : SlotKind) : (s.raiseSlot n k).resetAsserted = s.resetAsserted := (rfl)
@[simp] theorem raiseSlot_pending (n : Fin 16) (k : SlotKind) : (s.raiseSlot n k).pending = s.pending := (rfl)
@[simp] theorem raiseSlot_line (n : Fin 16) (k : SlotKind) (m : Fin 16) : (s.raiseSlot n k).line m = s.line m := (rfl)
@[simp] theorem raiseSlot_entry (n : Fin 16) (k : SlotKind) (c : Fin 96) : (s.raiseSlot n k).entry c = s.entry c := (rfl)
@[simp] theorem raiseSlot_binding (n : Fin 16) (k : SlotKind) (c : Fin 96) : (s.raiseSlot n k).binding c = s.binding c := (rfl)
@[simp] theorem raiseSlot_claim (n : Fin 16) (k : SlotKind) (c : Fin 96) : (s.raiseSlot n k).claim c = s.claim c := (rfl)
@[simp] theorem raiseSlot_duty (n : Fin 16) (k : SlotKind) (c : Fin 96) : (s.raiseSlot n k).duty c = s.duty c := (rfl)
@[simp] theorem raiseSlot_pattern (n : Fin 16) (k : SlotKind) (c : Fin 32) : (s.raiseSlot n k).pattern c = s.pattern c := (rfl)
@[simp] theorem raiseSlot_bucket (n : Fin 16) (k : SlotKind) (c : Fin 64) : (s.raiseSlot n k).bucket c = s.bucket c := (rfl)

/-! ### countSlot -/

@[simp] theorem countSlot_lines (n : Fin 16) (f : SlotCounters → SlotCounters) : (s.countSlot n f).lines = s.lines := (rfl)
@[simp] theorem countSlot_entries (n : Fin 16) (f : SlotCounters → SlotCounters) : (s.countSlot n f).entries = s.entries := (rfl)
@[simp] theorem countSlot_index (n : Fin 16) (f : SlotCounters → SlotCounters) : (s.countSlot n f).index = s.index := (rfl)
@[simp] theorem countSlot_patterns (n : Fin 16) (f : SlotCounters → SlotCounters) : (s.countSlot n f).patterns = s.patterns := (rfl)
@[simp] theorem countSlot_settings (n : Fin 16) (f : SlotCounters → SlotCounters) : (s.countSlot n f).settings = s.settings := (rfl)
@[simp] theorem countSlot_deviceAttention (n : Fin 16) (f : SlotCounters → SlotCounters) : (s.countSlot n f).deviceAttention = s.deviceAttention := (rfl)
@[simp] theorem countSlot_counters (n : Fin 16) (f : SlotCounters → SlotCounters) : (s.countSlot n f).counters = s.counters := (rfl)
@[simp] theorem countSlot_queue (n : Fin 16) (f : SlotCounters → SlotCounters) : (s.countSlot n f).queue = s.queue := (rfl)
@[simp] theorem countSlot_tx (n : Fin 16) (f : SlotCounters → SlotCounters) : (s.countSlot n f).tx = s.tx := (rfl)
@[simp] theorem countSlot_link (n : Fin 16) (f : SlotCounters → SlotCounters) : (s.countSlot n f).link = s.link := (rfl)
@[simp] theorem countSlot_lastEnded (n : Fin 16) (f : SlotCounters → SlotCounters) : (s.countSlot n f).lastEnded = s.lastEnded := (rfl)
@[simp] theorem countSlot_mailbox (n : Fin 16) (f : SlotCounters → SlotCounters) : (s.countSlot n f).mailbox = s.mailbox := (rfl)
@[simp] theorem countSlot_port (n : Fin 16) (f : SlotCounters → SlotCounters) : (s.countSlot n f).port = s.port := (rfl)
@[simp] theorem countSlot_now (n : Fin 16) (f : SlotCounters → SlotCounters) : (s.countSlot n f).now = s.now := (rfl)
@[simp] theorem countSlot_resetAsserted (n : Fin 16) (f : SlotCounters → SlotCounters) : (s.countSlot n f).resetAsserted = s.resetAsserted := (rfl)
@[simp] theorem countSlot_pending (n : Fin 16) (f : SlotCounters → SlotCounters) : (s.countSlot n f).pending = s.pending := (rfl)
@[simp] theorem countSlot_line (n : Fin 16) (f : SlotCounters → SlotCounters) (m : Fin 16) : (s.countSlot n f).line m = s.line m := (rfl)
@[simp] theorem countSlot_entry (n : Fin 16) (f : SlotCounters → SlotCounters) (c : Fin 96) : (s.countSlot n f).entry c = s.entry c := (rfl)
@[simp] theorem countSlot_binding (n : Fin 16) (f : SlotCounters → SlotCounters) (c : Fin 96) : (s.countSlot n f).binding c = s.binding c := (rfl)
@[simp] theorem countSlot_claim (n : Fin 16) (f : SlotCounters → SlotCounters) (c : Fin 96) : (s.countSlot n f).claim c = s.claim c := (rfl)
@[simp] theorem countSlot_duty (n : Fin 16) (f : SlotCounters → SlotCounters) (c : Fin 96) : (s.countSlot n f).duty c = s.duty c := (rfl)
@[simp] theorem countSlot_pattern (n : Fin 16) (f : SlotCounters → SlotCounters) (c : Fin 32) : (s.countSlot n f).pattern c = s.pattern c := (rfl)
@[simp] theorem countSlot_bucket (n : Fin 16) (f : SlotCounters → SlotCounters) (c : Fin 64) : (s.countSlot n f).bucket c = s.bucket c := (rfl)

/-! ### setLine -/

@[simp] theorem setLine_slots (n : Fin 16) (x : Filter) : (s.setLine n x).slots = s.slots := (rfl)
@[simp] theorem setLine_entries (n : Fin 16) (x : Filter) : (s.setLine n x).entries = s.entries := (rfl)
@[simp] theorem setLine_index (n : Fin 16) (x : Filter) : (s.setLine n x).index = s.index := (rfl)
@[simp] theorem setLine_patterns (n : Fin 16) (x : Filter) : (s.setLine n x).patterns = s.patterns := (rfl)
@[simp] theorem setLine_settings (n : Fin 16) (x : Filter) : (s.setLine n x).settings = s.settings := (rfl)
@[simp] theorem setLine_deviceAttention (n : Fin 16) (x : Filter) : (s.setLine n x).deviceAttention = s.deviceAttention := (rfl)
@[simp] theorem setLine_counters (n : Fin 16) (x : Filter) : (s.setLine n x).counters = s.counters := (rfl)
@[simp] theorem setLine_queue (n : Fin 16) (x : Filter) : (s.setLine n x).queue = s.queue := (rfl)
@[simp] theorem setLine_tx (n : Fin 16) (x : Filter) : (s.setLine n x).tx = s.tx := (rfl)
@[simp] theorem setLine_link (n : Fin 16) (x : Filter) : (s.setLine n x).link = s.link := (rfl)
@[simp] theorem setLine_lastEnded (n : Fin 16) (x : Filter) : (s.setLine n x).lastEnded = s.lastEnded := (rfl)
@[simp] theorem setLine_mailbox (n : Fin 16) (x : Filter) : (s.setLine n x).mailbox = s.mailbox := (rfl)
@[simp] theorem setLine_port (n : Fin 16) (x : Filter) : (s.setLine n x).port = s.port := (rfl)
@[simp] theorem setLine_now (n : Fin 16) (x : Filter) : (s.setLine n x).now = s.now := (rfl)
@[simp] theorem setLine_resetAsserted (n : Fin 16) (x : Filter) : (s.setLine n x).resetAsserted = s.resetAsserted := (rfl)
@[simp] theorem setLine_pending (n : Fin 16) (x : Filter) : (s.setLine n x).pending = s.pending := (rfl)
@[simp] theorem setLine_slot (n : Fin 16) (x : Filter) (m : Fin 16) : (s.setLine n x).slot m = s.slot m := (rfl)
@[simp] theorem setLine_entry (n : Fin 16) (x : Filter) (c : Fin 96) : (s.setLine n x).entry c = s.entry c := (rfl)
@[simp] theorem setLine_binding (n : Fin 16) (x : Filter) (c : Fin 96) : (s.setLine n x).binding c = s.binding c := (rfl)
@[simp] theorem setLine_claim (n : Fin 16) (x : Filter) (c : Fin 96) : (s.setLine n x).claim c = s.claim c := (rfl)
@[simp] theorem setLine_duty (n : Fin 16) (x : Filter) (c : Fin 96) : (s.setLine n x).duty c = s.duty c := (rfl)
@[simp] theorem setLine_pattern (n : Fin 16) (x : Filter) (c : Fin 32) : (s.setLine n x).pattern c = s.pattern c := (rfl)
@[simp] theorem setLine_bucket (n : Fin 16) (x : Filter) (c : Fin 64) : (s.setLine n x).bucket c = s.bucket c := (rfl)

/-! ### takeLevel -/

@[simp] theorem takeLevel_slots (n : Fin 16) (v : Bool) : (s.takeLevel n v).slots = s.slots := (rfl)
@[simp] theorem takeLevel_entries (n : Fin 16) (v : Bool) : (s.takeLevel n v).entries = s.entries := (rfl)
@[simp] theorem takeLevel_index (n : Fin 16) (v : Bool) : (s.takeLevel n v).index = s.index := (rfl)
@[simp] theorem takeLevel_patterns (n : Fin 16) (v : Bool) : (s.takeLevel n v).patterns = s.patterns := (rfl)
@[simp] theorem takeLevel_settings (n : Fin 16) (v : Bool) : (s.takeLevel n v).settings = s.settings := (rfl)
@[simp] theorem takeLevel_deviceAttention (n : Fin 16) (v : Bool) : (s.takeLevel n v).deviceAttention = s.deviceAttention := (rfl)
@[simp] theorem takeLevel_counters (n : Fin 16) (v : Bool) : (s.takeLevel n v).counters = s.counters := (rfl)
@[simp] theorem takeLevel_queue (n : Fin 16) (v : Bool) : (s.takeLevel n v).queue = s.queue := (rfl)
@[simp] theorem takeLevel_tx (n : Fin 16) (v : Bool) : (s.takeLevel n v).tx = s.tx := (rfl)
@[simp] theorem takeLevel_link (n : Fin 16) (v : Bool) : (s.takeLevel n v).link = s.link := (rfl)
@[simp] theorem takeLevel_lastEnded (n : Fin 16) (v : Bool) : (s.takeLevel n v).lastEnded = s.lastEnded := (rfl)
@[simp] theorem takeLevel_mailbox (n : Fin 16) (v : Bool) : (s.takeLevel n v).mailbox = s.mailbox := (rfl)
@[simp] theorem takeLevel_port (n : Fin 16) (v : Bool) : (s.takeLevel n v).port = s.port := (rfl)
@[simp] theorem takeLevel_now (n : Fin 16) (v : Bool) : (s.takeLevel n v).now = s.now := (rfl)
@[simp] theorem takeLevel_resetAsserted (n : Fin 16) (v : Bool) : (s.takeLevel n v).resetAsserted = s.resetAsserted := (rfl)
@[simp] theorem takeLevel_pending (n : Fin 16) (v : Bool) : (s.takeLevel n v).pending = s.pending := (rfl)
@[simp] theorem takeLevel_slot (n : Fin 16) (v : Bool) (m : Fin 16) : (s.takeLevel n v).slot m = s.slot m := (rfl)
@[simp] theorem takeLevel_entry (n : Fin 16) (v : Bool) (c : Fin 96) : (s.takeLevel n v).entry c = s.entry c := (rfl)
@[simp] theorem takeLevel_binding (n : Fin 16) (v : Bool) (c : Fin 96) : (s.takeLevel n v).binding c = s.binding c := (rfl)
@[simp] theorem takeLevel_claim (n : Fin 16) (v : Bool) (c : Fin 96) : (s.takeLevel n v).claim c = s.claim c := (rfl)
@[simp] theorem takeLevel_duty (n : Fin 16) (v : Bool) (c : Fin 96) : (s.takeLevel n v).duty c = s.duty c := (rfl)
@[simp] theorem takeLevel_pattern (n : Fin 16) (v : Bool) (c : Fin 32) : (s.takeLevel n v).pattern c = s.pattern c := (rfl)
@[simp] theorem takeLevel_bucket (n : Fin 16) (v : Bool) (c : Fin 64) : (s.takeLevel n v).bucket c = s.bucket c := (rfl)

/-! ### setEntry -/

@[simp] theorem setEntry_slots (e : Fin 96) (x : Entry) : (s.setEntry e x).slots = s.slots := (rfl)
@[simp] theorem setEntry_lines (e : Fin 96) (x : Entry) : (s.setEntry e x).lines = s.lines := (rfl)
@[simp] theorem setEntry_index (e : Fin 96) (x : Entry) : (s.setEntry e x).index = s.index := (rfl)
@[simp] theorem setEntry_patterns (e : Fin 96) (x : Entry) : (s.setEntry e x).patterns = s.patterns := (rfl)
@[simp] theorem setEntry_settings (e : Fin 96) (x : Entry) : (s.setEntry e x).settings = s.settings := (rfl)
@[simp] theorem setEntry_deviceAttention (e : Fin 96) (x : Entry) : (s.setEntry e x).deviceAttention = s.deviceAttention := (rfl)
@[simp] theorem setEntry_counters (e : Fin 96) (x : Entry) : (s.setEntry e x).counters = s.counters := (rfl)
@[simp] theorem setEntry_queue (e : Fin 96) (x : Entry) : (s.setEntry e x).queue = s.queue := (rfl)
@[simp] theorem setEntry_tx (e : Fin 96) (x : Entry) : (s.setEntry e x).tx = s.tx := (rfl)
@[simp] theorem setEntry_link (e : Fin 96) (x : Entry) : (s.setEntry e x).link = s.link := (rfl)
@[simp] theorem setEntry_lastEnded (e : Fin 96) (x : Entry) : (s.setEntry e x).lastEnded = s.lastEnded := (rfl)
@[simp] theorem setEntry_mailbox (e : Fin 96) (x : Entry) : (s.setEntry e x).mailbox = s.mailbox := (rfl)
@[simp] theorem setEntry_port (e : Fin 96) (x : Entry) : (s.setEntry e x).port = s.port := (rfl)
@[simp] theorem setEntry_now (e : Fin 96) (x : Entry) : (s.setEntry e x).now = s.now := (rfl)
@[simp] theorem setEntry_resetAsserted (e : Fin 96) (x : Entry) : (s.setEntry e x).resetAsserted = s.resetAsserted := (rfl)
@[simp] theorem setEntry_pending (e : Fin 96) (x : Entry) : (s.setEntry e x).pending = s.pending := (rfl)
@[simp] theorem setEntry_slot (e : Fin 96) (x : Entry) (m : Fin 16) : (s.setEntry e x).slot m = s.slot m := (rfl)
@[simp] theorem setEntry_line (e : Fin 96) (x : Entry) (m : Fin 16) : (s.setEntry e x).line m = s.line m := (rfl)
@[simp] theorem setEntry_pattern (e : Fin 96) (x : Entry) (c : Fin 32) : (s.setEntry e x).pattern c = s.pattern c := (rfl)
@[simp] theorem setEntry_bucket (e : Fin 96) (x : Entry) (c : Fin 64) : (s.setEntry e x).bucket c = s.bucket c := (rfl)

/-! ### modBinding -/

@[simp] theorem modBinding_slots (e : Fin 96) (f : Binding → Binding) : (s.modBinding e f).slots = s.slots := (rfl)
@[simp] theorem modBinding_lines (e : Fin 96) (f : Binding → Binding) : (s.modBinding e f).lines = s.lines := (rfl)
@[simp] theorem modBinding_index (e : Fin 96) (f : Binding → Binding) : (s.modBinding e f).index = s.index := (rfl)
@[simp] theorem modBinding_patterns (e : Fin 96) (f : Binding → Binding) : (s.modBinding e f).patterns = s.patterns := (rfl)
@[simp] theorem modBinding_settings (e : Fin 96) (f : Binding → Binding) : (s.modBinding e f).settings = s.settings := (rfl)
@[simp] theorem modBinding_deviceAttention (e : Fin 96) (f : Binding → Binding) : (s.modBinding e f).deviceAttention = s.deviceAttention := (rfl)
@[simp] theorem modBinding_counters (e : Fin 96) (f : Binding → Binding) : (s.modBinding e f).counters = s.counters := (rfl)
@[simp] theorem modBinding_queue (e : Fin 96) (f : Binding → Binding) : (s.modBinding e f).queue = s.queue := (rfl)
@[simp] theorem modBinding_tx (e : Fin 96) (f : Binding → Binding) : (s.modBinding e f).tx = s.tx := (rfl)
@[simp] theorem modBinding_link (e : Fin 96) (f : Binding → Binding) : (s.modBinding e f).link = s.link := (rfl)
@[simp] theorem modBinding_lastEnded (e : Fin 96) (f : Binding → Binding) : (s.modBinding e f).lastEnded = s.lastEnded := (rfl)
@[simp] theorem modBinding_mailbox (e : Fin 96) (f : Binding → Binding) : (s.modBinding e f).mailbox = s.mailbox := (rfl)
@[simp] theorem modBinding_port (e : Fin 96) (f : Binding → Binding) : (s.modBinding e f).port = s.port := (rfl)
@[simp] theorem modBinding_now (e : Fin 96) (f : Binding → Binding) : (s.modBinding e f).now = s.now := (rfl)
@[simp] theorem modBinding_resetAsserted (e : Fin 96) (f : Binding → Binding) : (s.modBinding e f).resetAsserted = s.resetAsserted := (rfl)
@[simp] theorem modBinding_pending (e : Fin 96) (f : Binding → Binding) : (s.modBinding e f).pending = s.pending := (rfl)
@[simp] theorem modBinding_slot (e : Fin 96) (f : Binding → Binding) (m : Fin 16) : (s.modBinding e f).slot m = s.slot m := (rfl)
@[simp] theorem modBinding_line (e : Fin 96) (f : Binding → Binding) (m : Fin 16) : (s.modBinding e f).line m = s.line m := (rfl)
@[simp] theorem modBinding_pattern (e : Fin 96) (f : Binding → Binding) (c : Fin 32) : (s.modBinding e f).pattern c = s.pattern c := (rfl)
@[simp] theorem modBinding_bucket (e : Fin 96) (f : Binding → Binding) (c : Fin 64) : (s.modBinding e f).bucket c = s.bucket c := (rfl)

/-! ### modBindings -/

@[simp] theorem modBindings_slots (es : List (Fin 96)) (f : Binding → Binding) : (s.modBindings es f).slots = s.slots := (rfl)
@[simp] theorem modBindings_lines (es : List (Fin 96)) (f : Binding → Binding) : (s.modBindings es f).lines = s.lines := (rfl)
@[simp] theorem modBindings_index (es : List (Fin 96)) (f : Binding → Binding) : (s.modBindings es f).index = s.index := (rfl)
@[simp] theorem modBindings_patterns (es : List (Fin 96)) (f : Binding → Binding) : (s.modBindings es f).patterns = s.patterns := (rfl)
@[simp] theorem modBindings_settings (es : List (Fin 96)) (f : Binding → Binding) : (s.modBindings es f).settings = s.settings := (rfl)
@[simp] theorem modBindings_deviceAttention (es : List (Fin 96)) (f : Binding → Binding) : (s.modBindings es f).deviceAttention = s.deviceAttention := (rfl)
@[simp] theorem modBindings_counters (es : List (Fin 96)) (f : Binding → Binding) : (s.modBindings es f).counters = s.counters := (rfl)
@[simp] theorem modBindings_queue (es : List (Fin 96)) (f : Binding → Binding) : (s.modBindings es f).queue = s.queue := (rfl)
@[simp] theorem modBindings_tx (es : List (Fin 96)) (f : Binding → Binding) : (s.modBindings es f).tx = s.tx := (rfl)
@[simp] theorem modBindings_link (es : List (Fin 96)) (f : Binding → Binding) : (s.modBindings es f).link = s.link := (rfl)
@[simp] theorem modBindings_lastEnded (es : List (Fin 96)) (f : Binding → Binding) : (s.modBindings es f).lastEnded = s.lastEnded := (rfl)
@[simp] theorem modBindings_mailbox (es : List (Fin 96)) (f : Binding → Binding) : (s.modBindings es f).mailbox = s.mailbox := (rfl)
@[simp] theorem modBindings_port (es : List (Fin 96)) (f : Binding → Binding) : (s.modBindings es f).port = s.port := (rfl)
@[simp] theorem modBindings_now (es : List (Fin 96)) (f : Binding → Binding) : (s.modBindings es f).now = s.now := (rfl)
@[simp] theorem modBindings_resetAsserted (es : List (Fin 96)) (f : Binding → Binding) : (s.modBindings es f).resetAsserted = s.resetAsserted := (rfl)
@[simp] theorem modBindings_pending (es : List (Fin 96)) (f : Binding → Binding) : (s.modBindings es f).pending = s.pending := (rfl)
@[simp] theorem modBindings_slot (es : List (Fin 96)) (f : Binding → Binding) (m : Fin 16) : (s.modBindings es f).slot m = s.slot m := (rfl)
@[simp] theorem modBindings_line (es : List (Fin 96)) (f : Binding → Binding) (m : Fin 16) : (s.modBindings es f).line m = s.line m := (rfl)
@[simp] theorem modBindings_pattern (es : List (Fin 96)) (f : Binding → Binding) (c : Fin 32) : (s.modBindings es f).pattern c = s.pattern c := (rfl)
@[simp] theorem modBindings_bucket (es : List (Fin 96)) (f : Binding → Binding) (c : Fin 64) : (s.modBindings es f).bucket c = s.bucket c := (rfl)

/-! ### setPattern -/

@[simp] theorem setPattern_slots (p : Fin 32) (x : Pattern) : (s.setPattern p x).slots = s.slots := (rfl)
@[simp] theorem setPattern_lines (p : Fin 32) (x : Pattern) : (s.setPattern p x).lines = s.lines := (rfl)
@[simp] theorem setPattern_entries (p : Fin 32) (x : Pattern) : (s.setPattern p x).entries = s.entries := (rfl)
@[simp] theorem setPattern_index (p : Fin 32) (x : Pattern) : (s.setPattern p x).index = s.index := (rfl)
@[simp] theorem setPattern_settings (p : Fin 32) (x : Pattern) : (s.setPattern p x).settings = s.settings := (rfl)
@[simp] theorem setPattern_deviceAttention (p : Fin 32) (x : Pattern) : (s.setPattern p x).deviceAttention = s.deviceAttention := (rfl)
@[simp] theorem setPattern_counters (p : Fin 32) (x : Pattern) : (s.setPattern p x).counters = s.counters := (rfl)
@[simp] theorem setPattern_queue (p : Fin 32) (x : Pattern) : (s.setPattern p x).queue = s.queue := (rfl)
@[simp] theorem setPattern_tx (p : Fin 32) (x : Pattern) : (s.setPattern p x).tx = s.tx := (rfl)
@[simp] theorem setPattern_link (p : Fin 32) (x : Pattern) : (s.setPattern p x).link = s.link := (rfl)
@[simp] theorem setPattern_lastEnded (p : Fin 32) (x : Pattern) : (s.setPattern p x).lastEnded = s.lastEnded := (rfl)
@[simp] theorem setPattern_mailbox (p : Fin 32) (x : Pattern) : (s.setPattern p x).mailbox = s.mailbox := (rfl)
@[simp] theorem setPattern_port (p : Fin 32) (x : Pattern) : (s.setPattern p x).port = s.port := (rfl)
@[simp] theorem setPattern_now (p : Fin 32) (x : Pattern) : (s.setPattern p x).now = s.now := (rfl)
@[simp] theorem setPattern_resetAsserted (p : Fin 32) (x : Pattern) : (s.setPattern p x).resetAsserted = s.resetAsserted := (rfl)
@[simp] theorem setPattern_pending (p : Fin 32) (x : Pattern) : (s.setPattern p x).pending = s.pending := (rfl)
@[simp] theorem setPattern_slot (p : Fin 32) (x : Pattern) (m : Fin 16) : (s.setPattern p x).slot m = s.slot m := (rfl)
@[simp] theorem setPattern_line (p : Fin 32) (x : Pattern) (m : Fin 16) : (s.setPattern p x).line m = s.line m := (rfl)
@[simp] theorem setPattern_entry (p : Fin 32) (x : Pattern) (c : Fin 96) : (s.setPattern p x).entry c = s.entry c := (rfl)
@[simp] theorem setPattern_binding (p : Fin 32) (x : Pattern) (c : Fin 96) : (s.setPattern p x).binding c = s.binding c := (rfl)
@[simp] theorem setPattern_claim (p : Fin 32) (x : Pattern) (c : Fin 96) : (s.setPattern p x).claim c = s.claim c := (rfl)
@[simp] theorem setPattern_duty (p : Fin 32) (x : Pattern) (c : Fin 96) : (s.setPattern p x).duty c = s.duty c := (rfl)
@[simp] theorem setPattern_bucket (p : Fin 32) (x : Pattern) (c : Fin 64) : (s.setPattern p x).bucket c = s.bucket c := (rfl)

/-! ### releasePatterns -/

@[simp] theorem releasePatterns_slots (ps : List (Fin 32)) : (s.releasePatterns ps).slots = s.slots := (rfl)
@[simp] theorem releasePatterns_lines (ps : List (Fin 32)) : (s.releasePatterns ps).lines = s.lines := (rfl)
@[simp] theorem releasePatterns_entries (ps : List (Fin 32)) : (s.releasePatterns ps).entries = s.entries := (rfl)
@[simp] theorem releasePatterns_index (ps : List (Fin 32)) : (s.releasePatterns ps).index = s.index := (rfl)
@[simp] theorem releasePatterns_settings (ps : List (Fin 32)) : (s.releasePatterns ps).settings = s.settings := (rfl)
@[simp] theorem releasePatterns_deviceAttention (ps : List (Fin 32)) : (s.releasePatterns ps).deviceAttention = s.deviceAttention := (rfl)
@[simp] theorem releasePatterns_counters (ps : List (Fin 32)) : (s.releasePatterns ps).counters = s.counters := (rfl)
@[simp] theorem releasePatterns_queue (ps : List (Fin 32)) : (s.releasePatterns ps).queue = s.queue := (rfl)
@[simp] theorem releasePatterns_tx (ps : List (Fin 32)) : (s.releasePatterns ps).tx = s.tx := (rfl)
@[simp] theorem releasePatterns_link (ps : List (Fin 32)) : (s.releasePatterns ps).link = s.link := (rfl)
@[simp] theorem releasePatterns_lastEnded (ps : List (Fin 32)) : (s.releasePatterns ps).lastEnded = s.lastEnded := (rfl)
@[simp] theorem releasePatterns_mailbox (ps : List (Fin 32)) : (s.releasePatterns ps).mailbox = s.mailbox := (rfl)
@[simp] theorem releasePatterns_port (ps : List (Fin 32)) : (s.releasePatterns ps).port = s.port := (rfl)
@[simp] theorem releasePatterns_now (ps : List (Fin 32)) : (s.releasePatterns ps).now = s.now := (rfl)
@[simp] theorem releasePatterns_resetAsserted (ps : List (Fin 32)) : (s.releasePatterns ps).resetAsserted = s.resetAsserted := (rfl)
@[simp] theorem releasePatterns_pending (ps : List (Fin 32)) : (s.releasePatterns ps).pending = s.pending := (rfl)
@[simp] theorem releasePatterns_slot (ps : List (Fin 32)) (m : Fin 16) : (s.releasePatterns ps).slot m = s.slot m := (rfl)
@[simp] theorem releasePatterns_line (ps : List (Fin 32)) (m : Fin 16) : (s.releasePatterns ps).line m = s.line m := (rfl)
@[simp] theorem releasePatterns_entry (ps : List (Fin 32)) (c : Fin 96) : (s.releasePatterns ps).entry c = s.entry c := (rfl)
@[simp] theorem releasePatterns_binding (ps : List (Fin 32)) (c : Fin 96) : (s.releasePatterns ps).binding c = s.binding c := (rfl)
@[simp] theorem releasePatterns_claim (ps : List (Fin 32)) (c : Fin 96) : (s.releasePatterns ps).claim c = s.claim c := (rfl)
@[simp] theorem releasePatterns_duty (ps : List (Fin 32)) (c : Fin 96) : (s.releasePatterns ps).duty c = s.duty c := (rfl)
@[simp] theorem releasePatterns_bucket (ps : List (Fin 32)) (c : Fin 64) : (s.releasePatterns ps).bucket c = s.bucket c := (rfl)

/-! ### raiseDevice -/

@[simp] theorem raiseDevice_slots (k : DeviceKind) : (s.raiseDevice k).slots = s.slots := (rfl)
@[simp] theorem raiseDevice_lines (k : DeviceKind) : (s.raiseDevice k).lines = s.lines := (rfl)
@[simp] theorem raiseDevice_entries (k : DeviceKind) : (s.raiseDevice k).entries = s.entries := (rfl)
@[simp] theorem raiseDevice_index (k : DeviceKind) : (s.raiseDevice k).index = s.index := (rfl)
@[simp] theorem raiseDevice_patterns (k : DeviceKind) : (s.raiseDevice k).patterns = s.patterns := (rfl)
@[simp] theorem raiseDevice_settings (k : DeviceKind) : (s.raiseDevice k).settings = s.settings := (rfl)
@[simp] theorem raiseDevice_counters (k : DeviceKind) : (s.raiseDevice k).counters = s.counters := (rfl)
@[simp] theorem raiseDevice_queue (k : DeviceKind) : (s.raiseDevice k).queue = s.queue := (rfl)
@[simp] theorem raiseDevice_tx (k : DeviceKind) : (s.raiseDevice k).tx = s.tx := (rfl)
@[simp] theorem raiseDevice_link (k : DeviceKind) : (s.raiseDevice k).link = s.link := (rfl)
@[simp] theorem raiseDevice_lastEnded (k : DeviceKind) : (s.raiseDevice k).lastEnded = s.lastEnded := (rfl)
@[simp] theorem raiseDevice_mailbox (k : DeviceKind) : (s.raiseDevice k).mailbox = s.mailbox := (rfl)
@[simp] theorem raiseDevice_port (k : DeviceKind) : (s.raiseDevice k).port = s.port := (rfl)
@[simp] theorem raiseDevice_now (k : DeviceKind) : (s.raiseDevice k).now = s.now := (rfl)
@[simp] theorem raiseDevice_resetAsserted (k : DeviceKind) : (s.raiseDevice k).resetAsserted = s.resetAsserted := (rfl)
@[simp] theorem raiseDevice_pending (k : DeviceKind) : (s.raiseDevice k).pending = s.pending := (rfl)
@[simp] theorem raiseDevice_slot (k : DeviceKind) (m : Fin 16) : (s.raiseDevice k).slot m = s.slot m := (rfl)
@[simp] theorem raiseDevice_line (k : DeviceKind) (m : Fin 16) : (s.raiseDevice k).line m = s.line m := (rfl)
@[simp] theorem raiseDevice_entry (k : DeviceKind) (c : Fin 96) : (s.raiseDevice k).entry c = s.entry c := (rfl)
@[simp] theorem raiseDevice_binding (k : DeviceKind) (c : Fin 96) : (s.raiseDevice k).binding c = s.binding c := (rfl)
@[simp] theorem raiseDevice_claim (k : DeviceKind) (c : Fin 96) : (s.raiseDevice k).claim c = s.claim c := (rfl)
@[simp] theorem raiseDevice_duty (k : DeviceKind) (c : Fin 96) : (s.raiseDevice k).duty c = s.duty c := (rfl)
@[simp] theorem raiseDevice_pattern (k : DeviceKind) (c : Fin 32) : (s.raiseDevice k).pattern c = s.pattern c := (rfl)
@[simp] theorem raiseDevice_bucket (k : DeviceKind) (c : Fin 64) : (s.raiseDevice k).bucket c = s.bucket c := (rfl)

/-! ### misuse -/

@[simp] theorem misuse_slots : (s.misuse).slots = s.slots := (rfl)
@[simp] theorem misuse_lines : (s.misuse).lines = s.lines := (rfl)
@[simp] theorem misuse_entries : (s.misuse).entries = s.entries := (rfl)
@[simp] theorem misuse_index : (s.misuse).index = s.index := (rfl)
@[simp] theorem misuse_patterns : (s.misuse).patterns = s.patterns := (rfl)
@[simp] theorem misuse_settings : (s.misuse).settings = s.settings := (rfl)
@[simp] theorem misuse_counters : (s.misuse).counters = s.counters := (rfl)
@[simp] theorem misuse_queue : (s.misuse).queue = s.queue := (rfl)
@[simp] theorem misuse_tx : (s.misuse).tx = s.tx := (rfl)
@[simp] theorem misuse_link : (s.misuse).link = s.link := (rfl)
@[simp] theorem misuse_lastEnded : (s.misuse).lastEnded = s.lastEnded := (rfl)
@[simp] theorem misuse_mailbox : (s.misuse).mailbox = s.mailbox := (rfl)
@[simp] theorem misuse_port : (s.misuse).port = s.port := (rfl)
@[simp] theorem misuse_now : (s.misuse).now = s.now := (rfl)
@[simp] theorem misuse_resetAsserted : (s.misuse).resetAsserted = s.resetAsserted := (rfl)
@[simp] theorem misuse_pending : (s.misuse).pending = s.pending := (rfl)
@[simp] theorem misuse_slot (m : Fin 16) : (s.misuse).slot m = s.slot m := (rfl)
@[simp] theorem misuse_line (m : Fin 16) : (s.misuse).line m = s.line m := (rfl)
@[simp] theorem misuse_entry (c : Fin 96) : (s.misuse).entry c = s.entry c := (rfl)
@[simp] theorem misuse_binding (c : Fin 96) : (s.misuse).binding c = s.binding c := (rfl)
@[simp] theorem misuse_claim (c : Fin 96) : (s.misuse).claim c = s.claim c := (rfl)
@[simp] theorem misuse_duty (c : Fin 96) : (s.misuse).duty c = s.duty c := (rfl)
@[simp] theorem misuse_pattern (c : Fin 32) : (s.misuse).pattern c = s.pattern c := (rfl)
@[simp] theorem misuse_bucket (c : Fin 64) : (s.misuse).bucket c = s.bucket c := (rfl)

/-! ### count -/

@[simp] theorem count_slots (f : DeviceCounters → DeviceCounters) : (s.count f).slots = s.slots := (rfl)
@[simp] theorem count_lines (f : DeviceCounters → DeviceCounters) : (s.count f).lines = s.lines := (rfl)
@[simp] theorem count_entries (f : DeviceCounters → DeviceCounters) : (s.count f).entries = s.entries := (rfl)
@[simp] theorem count_index (f : DeviceCounters → DeviceCounters) : (s.count f).index = s.index := (rfl)
@[simp] theorem count_patterns (f : DeviceCounters → DeviceCounters) : (s.count f).patterns = s.patterns := (rfl)
@[simp] theorem count_settings (f : DeviceCounters → DeviceCounters) : (s.count f).settings = s.settings := (rfl)
@[simp] theorem count_deviceAttention (f : DeviceCounters → DeviceCounters) : (s.count f).deviceAttention = s.deviceAttention := (rfl)
@[simp] theorem count_queue (f : DeviceCounters → DeviceCounters) : (s.count f).queue = s.queue := (rfl)
@[simp] theorem count_tx (f : DeviceCounters → DeviceCounters) : (s.count f).tx = s.tx := (rfl)
@[simp] theorem count_link (f : DeviceCounters → DeviceCounters) : (s.count f).link = s.link := (rfl)
@[simp] theorem count_lastEnded (f : DeviceCounters → DeviceCounters) : (s.count f).lastEnded = s.lastEnded := (rfl)
@[simp] theorem count_mailbox (f : DeviceCounters → DeviceCounters) : (s.count f).mailbox = s.mailbox := (rfl)
@[simp] theorem count_port (f : DeviceCounters → DeviceCounters) : (s.count f).port = s.port := (rfl)
@[simp] theorem count_now (f : DeviceCounters → DeviceCounters) : (s.count f).now = s.now := (rfl)
@[simp] theorem count_resetAsserted (f : DeviceCounters → DeviceCounters) : (s.count f).resetAsserted = s.resetAsserted := (rfl)
@[simp] theorem count_pending (f : DeviceCounters → DeviceCounters) : (s.count f).pending = s.pending := (rfl)
@[simp] theorem count_slot (f : DeviceCounters → DeviceCounters) (m : Fin 16) : (s.count f).slot m = s.slot m := (rfl)
@[simp] theorem count_line (f : DeviceCounters → DeviceCounters) (m : Fin 16) : (s.count f).line m = s.line m := (rfl)
@[simp] theorem count_entry (f : DeviceCounters → DeviceCounters) (c : Fin 96) : (s.count f).entry c = s.entry c := (rfl)
@[simp] theorem count_binding (f : DeviceCounters → DeviceCounters) (c : Fin 96) : (s.count f).binding c = s.binding c := (rfl)
@[simp] theorem count_claim (f : DeviceCounters → DeviceCounters) (c : Fin 96) : (s.count f).claim c = s.claim c := (rfl)
@[simp] theorem count_duty (f : DeviceCounters → DeviceCounters) (c : Fin 96) : (s.count f).duty c = s.duty c := (rfl)
@[simp] theorem count_pattern (f : DeviceCounters → DeviceCounters) (c : Fin 32) : (s.count f).pattern c = s.pattern c := (rfl)
@[simp] theorem count_bucket (f : DeviceCounters → DeviceCounters) (c : Fin 64) : (s.count f).bucket c = s.bucket c := (rfl)

/-! ### complete -/

@[simp] theorem complete_slots (r : Result) (d : List Byte) : (s.complete r d).slots = s.slots := (rfl)
@[simp] theorem complete_lines (r : Result) (d : List Byte) : (s.complete r d).lines = s.lines := (rfl)
@[simp] theorem complete_entries (r : Result) (d : List Byte) : (s.complete r d).entries = s.entries := (rfl)
@[simp] theorem complete_index (r : Result) (d : List Byte) : (s.complete r d).index = s.index := (rfl)
@[simp] theorem complete_patterns (r : Result) (d : List Byte) : (s.complete r d).patterns = s.patterns := (rfl)
@[simp] theorem complete_settings (r : Result) (d : List Byte) : (s.complete r d).settings = s.settings := (rfl)
@[simp] theorem complete_deviceAttention (r : Result) (d : List Byte) : (s.complete r d).deviceAttention = s.deviceAttention := (rfl)
@[simp] theorem complete_counters (r : Result) (d : List Byte) : (s.complete r d).counters = s.counters := (rfl)
@[simp] theorem complete_queue (r : Result) (d : List Byte) : (s.complete r d).queue = s.queue := (rfl)
@[simp] theorem complete_tx (r : Result) (d : List Byte) : (s.complete r d).tx = s.tx := (rfl)
@[simp] theorem complete_link (r : Result) (d : List Byte) : (s.complete r d).link = s.link := (rfl)
@[simp] theorem complete_lastEnded (r : Result) (d : List Byte) : (s.complete r d).lastEnded = s.lastEnded := (rfl)
@[simp] theorem complete_port (r : Result) (d : List Byte) : (s.complete r d).port = s.port := (rfl)
@[simp] theorem complete_now (r : Result) (d : List Byte) : (s.complete r d).now = s.now := (rfl)
@[simp] theorem complete_resetAsserted (r : Result) (d : List Byte) : (s.complete r d).resetAsserted = s.resetAsserted := (rfl)
@[simp] theorem complete_pending (r : Result) (d : List Byte) : (s.complete r d).pending = s.pending := (rfl)
@[simp] theorem complete_slot (r : Result) (d : List Byte) (m : Fin 16) : (s.complete r d).slot m = s.slot m := (rfl)
@[simp] theorem complete_line (r : Result) (d : List Byte) (m : Fin 16) : (s.complete r d).line m = s.line m := (rfl)
@[simp] theorem complete_entry (r : Result) (d : List Byte) (c : Fin 96) : (s.complete r d).entry c = s.entry c := (rfl)
@[simp] theorem complete_binding (r : Result) (d : List Byte) (c : Fin 96) : (s.complete r d).binding c = s.binding c := (rfl)
@[simp] theorem complete_claim (r : Result) (d : List Byte) (c : Fin 96) : (s.complete r d).claim c = s.claim c := (rfl)
@[simp] theorem complete_duty (r : Result) (d : List Byte) (c : Fin 96) : (s.complete r d).duty c = s.duty c := (rfl)
@[simp] theorem complete_pattern (r : Result) (d : List Byte) (c : Fin 32) : (s.complete r d).pattern c = s.pattern c := (rfl)
@[simp] theorem complete_bucket (r : Result) (d : List Byte) (c : Fin 64) : (s.complete r d).bucket c = s.bucket c := (rfl)

/-! ### placeCommand -/

@[simp] theorem placeCommand_slots (i : Instr) : (s.placeCommand i).slots = s.slots := (rfl)
@[simp] theorem placeCommand_lines (i : Instr) : (s.placeCommand i).lines = s.lines := (rfl)
@[simp] theorem placeCommand_entries (i : Instr) : (s.placeCommand i).entries = s.entries := (rfl)
@[simp] theorem placeCommand_index (i : Instr) : (s.placeCommand i).index = s.index := (rfl)
@[simp] theorem placeCommand_patterns (i : Instr) : (s.placeCommand i).patterns = s.patterns := (rfl)
@[simp] theorem placeCommand_settings (i : Instr) : (s.placeCommand i).settings = s.settings := (rfl)
@[simp] theorem placeCommand_deviceAttention (i : Instr) : (s.placeCommand i).deviceAttention = s.deviceAttention := (rfl)
@[simp] theorem placeCommand_counters (i : Instr) : (s.placeCommand i).counters = s.counters := (rfl)
@[simp] theorem placeCommand_queue (i : Instr) : (s.placeCommand i).queue = s.queue := (rfl)
@[simp] theorem placeCommand_tx (i : Instr) : (s.placeCommand i).tx = s.tx := (rfl)
@[simp] theorem placeCommand_link (i : Instr) : (s.placeCommand i).link = s.link := (rfl)
@[simp] theorem placeCommand_lastEnded (i : Instr) : (s.placeCommand i).lastEnded = s.lastEnded := (rfl)
@[simp] theorem placeCommand_port (i : Instr) : (s.placeCommand i).port = s.port := (rfl)
@[simp] theorem placeCommand_now (i : Instr) : (s.placeCommand i).now = s.now := (rfl)
@[simp] theorem placeCommand_resetAsserted (i : Instr) : (s.placeCommand i).resetAsserted = s.resetAsserted := (rfl)
@[simp] theorem placeCommand_pending (i : Instr) : (s.placeCommand i).pending = s.pending := (rfl)
@[simp] theorem placeCommand_slot (i : Instr) (m : Fin 16) : (s.placeCommand i).slot m = s.slot m := (rfl)
@[simp] theorem placeCommand_line (i : Instr) (m : Fin 16) : (s.placeCommand i).line m = s.line m := (rfl)
@[simp] theorem placeCommand_entry (i : Instr) (c : Fin 96) : (s.placeCommand i).entry c = s.entry c := (rfl)
@[simp] theorem placeCommand_binding (i : Instr) (c : Fin 96) : (s.placeCommand i).binding c = s.binding c := (rfl)
@[simp] theorem placeCommand_claim (i : Instr) (c : Fin 96) : (s.placeCommand i).claim c = s.claim c := (rfl)
@[simp] theorem placeCommand_duty (i : Instr) (c : Fin 96) : (s.placeCommand i).duty c = s.duty c := (rfl)
@[simp] theorem placeCommand_pattern (i : Instr) (c : Fin 32) : (s.placeCommand i).pattern c = s.pattern c := (rfl)
@[simp] theorem placeCommand_bucket (i : Instr) (c : Fin 64) : (s.placeCommand i).bucket c = s.bucket c := (rfl)

/-! ### storeCommandByte -/

@[simp] theorem storeCommandByte_slots (o v : Byte) : (s.storeCommandByte o v).slots = s.slots := (rfl)
@[simp] theorem storeCommandByte_lines (o v : Byte) : (s.storeCommandByte o v).lines = s.lines := (rfl)
@[simp] theorem storeCommandByte_entries (o v : Byte) : (s.storeCommandByte o v).entries = s.entries := (rfl)
@[simp] theorem storeCommandByte_index (o v : Byte) : (s.storeCommandByte o v).index = s.index := (rfl)
@[simp] theorem storeCommandByte_patterns (o v : Byte) : (s.storeCommandByte o v).patterns = s.patterns := (rfl)
@[simp] theorem storeCommandByte_settings (o v : Byte) : (s.storeCommandByte o v).settings = s.settings := (rfl)
@[simp] theorem storeCommandByte_deviceAttention (o v : Byte) : (s.storeCommandByte o v).deviceAttention = s.deviceAttention := (rfl)
@[simp] theorem storeCommandByte_counters (o v : Byte) : (s.storeCommandByte o v).counters = s.counters := (rfl)
@[simp] theorem storeCommandByte_queue (o v : Byte) : (s.storeCommandByte o v).queue = s.queue := (rfl)
@[simp] theorem storeCommandByte_tx (o v : Byte) : (s.storeCommandByte o v).tx = s.tx := (rfl)
@[simp] theorem storeCommandByte_link (o v : Byte) : (s.storeCommandByte o v).link = s.link := (rfl)
@[simp] theorem storeCommandByte_lastEnded (o v : Byte) : (s.storeCommandByte o v).lastEnded = s.lastEnded := (rfl)
@[simp] theorem storeCommandByte_port (o v : Byte) : (s.storeCommandByte o v).port = s.port := (rfl)
@[simp] theorem storeCommandByte_now (o v : Byte) : (s.storeCommandByte o v).now = s.now := (rfl)
@[simp] theorem storeCommandByte_resetAsserted (o v : Byte) : (s.storeCommandByte o v).resetAsserted = s.resetAsserted := (rfl)
@[simp] theorem storeCommandByte_pending (o v : Byte) : (s.storeCommandByte o v).pending = s.pending := (rfl)
@[simp] theorem storeCommandByte_slot (o v : Byte) (m : Fin 16) : (s.storeCommandByte o v).slot m = s.slot m := (rfl)
@[simp] theorem storeCommandByte_line (o v : Byte) (m : Fin 16) : (s.storeCommandByte o v).line m = s.line m := (rfl)
@[simp] theorem storeCommandByte_entry (o v : Byte) (c : Fin 96) : (s.storeCommandByte o v).entry c = s.entry c := (rfl)
@[simp] theorem storeCommandByte_binding (o v : Byte) (c : Fin 96) : (s.storeCommandByte o v).binding c = s.binding c := (rfl)
@[simp] theorem storeCommandByte_claim (o v : Byte) (c : Fin 96) : (s.storeCommandByte o v).claim c = s.claim c := (rfl)
@[simp] theorem storeCommandByte_duty (o v : Byte) (c : Fin 96) : (s.storeCommandByte o v).duty c = s.duty c := (rfl)
@[simp] theorem storeCommandByte_pattern (o v : Byte) (c : Fin 32) : (s.storeCommandByte o v).pattern c = s.pattern c := (rfl)
@[simp] theorem storeCommandByte_bucket (o v : Byte) (c : Fin 64) : (s.storeCommandByte o v).bucket c = s.bucket c := (rfl)

/-! ### passCounts -/

@[simp] theorem passCounts_slots (k : Nat) : (s.passCounts k).slots = s.slots := (rfl)
@[simp] theorem passCounts_entries (k : Nat) : (s.passCounts k).entries = s.entries := (rfl)
@[simp] theorem passCounts_index (k : Nat) : (s.passCounts k).index = s.index := (rfl)
@[simp] theorem passCounts_patterns (k : Nat) : (s.passCounts k).patterns = s.patterns := (rfl)
@[simp] theorem passCounts_settings (k : Nat) : (s.passCounts k).settings = s.settings := (rfl)
@[simp] theorem passCounts_deviceAttention (k : Nat) : (s.passCounts k).deviceAttention = s.deviceAttention := (rfl)
@[simp] theorem passCounts_counters (k : Nat) : (s.passCounts k).counters = s.counters := (rfl)
@[simp] theorem passCounts_queue (k : Nat) : (s.passCounts k).queue = s.queue := (rfl)
@[simp] theorem passCounts_tx (k : Nat) : (s.passCounts k).tx = s.tx := (rfl)
@[simp] theorem passCounts_link (k : Nat) : (s.passCounts k).link = s.link := (rfl)
@[simp] theorem passCounts_lastEnded (k : Nat) : (s.passCounts k).lastEnded = s.lastEnded := (rfl)
@[simp] theorem passCounts_mailbox (k : Nat) : (s.passCounts k).mailbox = s.mailbox := (rfl)
@[simp] theorem passCounts_port (k : Nat) : (s.passCounts k).port = s.port := (rfl)
@[simp] theorem passCounts_resetAsserted (k : Nat) : (s.passCounts k).resetAsserted = s.resetAsserted := (rfl)
@[simp] theorem passCounts_pending (k : Nat) : (s.passCounts k).pending = s.pending := (rfl)
@[simp] theorem passCounts_slot (k : Nat) (m : Fin 16) : (s.passCounts k).slot m = s.slot m := (rfl)
@[simp] theorem passCounts_entry (k : Nat) (c : Fin 96) : (s.passCounts k).entry c = s.entry c := (rfl)
@[simp] theorem passCounts_binding (k : Nat) (c : Fin 96) : (s.passCounts k).binding c = s.binding c := (rfl)
@[simp] theorem passCounts_claim (k : Nat) (c : Fin 96) : (s.passCounts k).claim c = s.claim c := (rfl)
@[simp] theorem passCounts_duty (k : Nat) (c : Fin 96) : (s.passCounts k).duty c = s.duty c := (rfl)
@[simp] theorem passCounts_pattern (k : Nat) (c : Fin 32) : (s.passCounts k).pattern c = s.pattern c := (rfl)
@[simp] theorem passCounts_bucket (k : Nat) (c : Fin 64) : (s.passCounts k).bucket c = s.bucket c := (rfl)

/-! ### freeEntries -/

@[simp] theorem freeEntries_lines (es : List (Fin 96)) : (s.freeEntries es).lines = s.lines := (rfl)
@[simp] theorem freeEntries_patterns (es : List (Fin 96)) : (s.freeEntries es).patterns = s.patterns := (rfl)
@[simp] theorem freeEntries_settings (es : List (Fin 96)) : (s.freeEntries es).settings = s.settings := (rfl)
@[simp] theorem freeEntries_deviceAttention (es : List (Fin 96)) : (s.freeEntries es).deviceAttention = s.deviceAttention := (rfl)
@[simp] theorem freeEntries_counters (es : List (Fin 96)) : (s.freeEntries es).counters = s.counters := (rfl)
@[simp] theorem freeEntries_queue (es : List (Fin 96)) : (s.freeEntries es).queue = s.queue := (rfl)
@[simp] theorem freeEntries_tx (es : List (Fin 96)) : (s.freeEntries es).tx = s.tx := (rfl)
@[simp] theorem freeEntries_link (es : List (Fin 96)) : (s.freeEntries es).link = s.link := (rfl)
@[simp] theorem freeEntries_lastEnded (es : List (Fin 96)) : (s.freeEntries es).lastEnded = s.lastEnded := (rfl)
@[simp] theorem freeEntries_mailbox (es : List (Fin 96)) : (s.freeEntries es).mailbox = s.mailbox := (rfl)
@[simp] theorem freeEntries_port (es : List (Fin 96)) : (s.freeEntries es).port = s.port := (rfl)
@[simp] theorem freeEntries_now (es : List (Fin 96)) : (s.freeEntries es).now = s.now := (rfl)
@[simp] theorem freeEntries_resetAsserted (es : List (Fin 96)) : (s.freeEntries es).resetAsserted = s.resetAsserted := (rfl)
@[simp] theorem freeEntries_pending (es : List (Fin 96)) : (s.freeEntries es).pending = s.pending := (rfl)
@[simp] theorem freeEntries_line (es : List (Fin 96)) (m : Fin 16) : (s.freeEntries es).line m = s.line m := (rfl)
@[simp] theorem freeEntries_pattern (es : List (Fin 96)) (c : Fin 32) : (s.freeEntries es).pattern c = s.pattern c := (rfl)

/-! ### insert -/

@[simp] theorem insert_lines (n : Fin 16) (a : Addr) (e : Fin 96) (w : Fin 4) : (s.insert n a e w).lines = s.lines := (rfl)
@[simp] theorem insert_patterns (n : Fin 16) (a : Addr) (e : Fin 96) (w : Fin 4) : (s.insert n a e w).patterns = s.patterns := (rfl)
@[simp] theorem insert_settings (n : Fin 16) (a : Addr) (e : Fin 96) (w : Fin 4) : (s.insert n a e w).settings = s.settings := (rfl)
@[simp] theorem insert_deviceAttention (n : Fin 16) (a : Addr) (e : Fin 96) (w : Fin 4) : (s.insert n a e w).deviceAttention = s.deviceAttention := (rfl)
@[simp] theorem insert_counters (n : Fin 16) (a : Addr) (e : Fin 96) (w : Fin 4) : (s.insert n a e w).counters = s.counters := (rfl)
@[simp] theorem insert_queue (n : Fin 16) (a : Addr) (e : Fin 96) (w : Fin 4) : (s.insert n a e w).queue = s.queue := (rfl)
@[simp] theorem insert_tx (n : Fin 16) (a : Addr) (e : Fin 96) (w : Fin 4) : (s.insert n a e w).tx = s.tx := (rfl)
@[simp] theorem insert_link (n : Fin 16) (a : Addr) (e : Fin 96) (w : Fin 4) : (s.insert n a e w).link = s.link := (rfl)
@[simp] theorem insert_lastEnded (n : Fin 16) (a : Addr) (e : Fin 96) (w : Fin 4) : (s.insert n a e w).lastEnded = s.lastEnded := (rfl)
@[simp] theorem insert_mailbox (n : Fin 16) (a : Addr) (e : Fin 96) (w : Fin 4) : (s.insert n a e w).mailbox = s.mailbox := (rfl)
@[simp] theorem insert_port (n : Fin 16) (a : Addr) (e : Fin 96) (w : Fin 4) : (s.insert n a e w).port = s.port := (rfl)
@[simp] theorem insert_now (n : Fin 16) (a : Addr) (e : Fin 96) (w : Fin 4) : (s.insert n a e w).now = s.now := (rfl)
@[simp] theorem insert_resetAsserted (n : Fin 16) (a : Addr) (e : Fin 96) (w : Fin 4) : (s.insert n a e w).resetAsserted = s.resetAsserted := (rfl)
@[simp] theorem insert_pending (n : Fin 16) (a : Addr) (e : Fin 96) (w : Fin 4) : (s.insert n a e w).pending = s.pending := (rfl)
@[simp] theorem insert_line (n : Fin 16) (a : Addr) (e : Fin 96) (w : Fin 4) (m : Fin 16) : (s.insert n a e w).line m = s.line m := (rfl)
@[simp] theorem insert_pattern (n : Fin 16) (a : Addr) (e : Fin 96) (w : Fin 4) (c : Fin 32) : (s.insert n a e w).pattern c = s.pattern c := (rfl)

/-! ### becomeVacant -/

@[simp] theorem becomeVacant_lines (n : Fin 16) : (s.becomeVacant n).lines = s.lines := (rfl)
@[simp] theorem becomeVacant_settings (n : Fin 16) : (s.becomeVacant n).settings = s.settings := (rfl)
@[simp] theorem becomeVacant_deviceAttention (n : Fin 16) : (s.becomeVacant n).deviceAttention = s.deviceAttention := (rfl)
@[simp] theorem becomeVacant_counters (n : Fin 16) : (s.becomeVacant n).counters = s.counters := (rfl)
@[simp] theorem becomeVacant_queue (n : Fin 16) : (s.becomeVacant n).queue = s.queue := (rfl)
@[simp] theorem becomeVacant_tx (n : Fin 16) : (s.becomeVacant n).tx = s.tx := (rfl)
@[simp] theorem becomeVacant_link (n : Fin 16) : (s.becomeVacant n).link = s.link := (rfl)
@[simp] theorem becomeVacant_lastEnded (n : Fin 16) : (s.becomeVacant n).lastEnded = s.lastEnded := (rfl)
@[simp] theorem becomeVacant_mailbox (n : Fin 16) : (s.becomeVacant n).mailbox = s.mailbox := (rfl)
@[simp] theorem becomeVacant_port (n : Fin 16) : (s.becomeVacant n).port = s.port := (rfl)
@[simp] theorem becomeVacant_now (n : Fin 16) : (s.becomeVacant n).now = s.now := (rfl)
@[simp] theorem becomeVacant_resetAsserted (n : Fin 16) : (s.becomeVacant n).resetAsserted = s.resetAsserted := (rfl)
@[simp] theorem becomeVacant_pending (n : Fin 16) : (s.becomeVacant n).pending = s.pending := (rfl)
@[simp] theorem becomeVacant_line (n : Fin 16) (m : Fin 16) : (s.becomeVacant n).line m = s.line m := (rfl)

end Sys2Proof.Machine
end

