-- ==== Sys2Proof/Laws/Access.lean ====
section
/-! SUPPORT. Laws/Access.lean: what each record reads as after each update of its table. -/

namespace Sys2Proof.Machine

variable (s : State)

theorem State.slot_eq (n : Fin 16) : s.slot n = s.slots[n] := rfl
theorem State.entry_eq (e : Fin 96) : s.entry e = s.entries[e] := rfl
theorem State.binding_eq (e : Fin 96) : s.binding e = (s.entry e).binding := rfl

/-! ### Slots and lines -/

@[simp] theorem slot_setSlot (n m : Fin 16) (x : Slot) : (s.setSlot n x).slot m = if n = m then x else s.slot m := by
  simp [State.slot, State.setSlot, Vector.getElem_set, Fin.ext_iff]

@[simp] theorem slot_modSlot (n m : Fin 16) (f : Slot → Slot) :
    (s.modSlot n f).slot m = if n = m then f (s.slot m) else s.slot m := by
  by_cases h : n = m <;> simp [State.modSlot, h]

@[simp] theorem slot_raiseSlot (n m : Fin 16) (k : SlotKind) :
    (s.raiseSlot n k).slot m = if n = m then (s.slot m).raise k else s.slot m := slot_modSlot s n m _

@[simp] theorem slot_countSlot (n m : Fin 16) (f : SlotCounters → SlotCounters) :
    (s.countSlot n f).slot m = if n = m then (s.slot m).count f else s.slot m := slot_modSlot s n m _

@[simp] theorem line_setLine (n m : Fin 16) (x : Filter) : (s.setLine n x).line m = if n = m then x else s.line m := by
  simp [State.line, State.setLine, Vector.getElem_set, Fin.ext_iff]

@[simp] theorem line_takeLevel (n m : Fin 16) (v : Bool) :
    (s.takeLevel n v).line m = if n = m then (s.line n).take v else s.line m := line_setLine s n m _

@[simp] theorem line_passCounts (k : Nat) (n : Fin 16) :
    (s.passCounts k).line n = (s.line n).sample k := by
  rw [State.passCounts, State.line]
  simp

/-! ### Entries -/

@[simp] theorem Entry.gen_modBinding (x : Entry) (f : Binding → Binding) : (x.modBinding f).gen = x.gen := rfl
@[simp] theorem Entry.binding_modBinding (x : Entry) (f : Binding → Binding) :
    (x.modBinding f).binding = x.binding.map f := rfl

@[simp] theorem entry_setEntry (e c : Fin 96) (x : Entry) : (s.setEntry e x).entry c = if e = c then x else s.entry c := by
  simp [State.entry, State.setEntry, Vector.getElem_set, Fin.ext_iff]

@[simp] theorem entry_modBinding (e c : Fin 96) (f : Binding → Binding) :
    (s.modBinding e f).entry c = if e = c then (s.entry c).modBinding f else s.entry c := by
  by_cases h : e = c <;> simp [State.modBinding, h]

@[simp] theorem entry_modBindings (es : List (Fin 96)) (c : Fin 96) (f : Binding → Binding) :
    (s.modBindings es f).entry c = if c ∈ es then (s.entry c).modBinding f else s.entry c := by
  rw [State.modBindings, State.entry]
  simp

@[simp] theorem binding_setEntry (e c : Fin 96) (x : Entry) :
    (s.setEntry e x).binding c = if e = c then x.binding else s.binding c := by
  by_cases h : e = c <;> simp [State.binding, h]

@[simp] theorem binding_modBinding (e c : Fin 96) (f : Binding → Binding) :
    (s.modBinding e f).binding c = if e = c then (s.binding c).map f else s.binding c := by
  by_cases h : e = c <;> simp [State.binding, h]

@[simp] theorem binding_modBindings (es : List (Fin 96)) (c : Fin 96) (f : Binding → Binding) :
    (s.modBindings es f).binding c = if c ∈ es then (s.binding c).map f else s.binding c := by
  by_cases h : c ∈ es <;> simp [State.binding, h]

theorem duty_of_binding {s : State} {e : Fin 96} {b : Binding} (h : s.binding e = some b) : s.duty e = b.duty := by
  simp [State.duty, h]

theorem claim_of_binding {s : State} {e : Fin 96} {b : Binding} (h : s.binding e = some b) : s.claim e = some b.claim := by
  simp [State.claim, h]

/-! ### Freeing -/

@[simp] theorem entry_freeEntries (es : List (Fin 96)) (c : Fin 96) :
    (s.freeEntries es).entry c = if c ∈ es then (s.entry c).free else s.entry c := by
  rw [State.freeEntries, State.entry]
  simp

@[simp] theorem binding_freeEntries (es : List (Fin 96)) (c : Fin 96) :
    (s.freeEntries es).binding c = if c ∈ es then none else s.binding c := by
  by_cases h : c ∈ es
  · simp only [State.binding, entry_freeEntries, h, if_true, Entry.free]
    split <;> simp_all
  · simp [State.binding, h]

@[simp] theorem slot_freeEntries (es : List (Fin 96)) (n : Fin 16) :
    (s.freeEntries es).slot n =
      { s.slot n with addresses := (s.slot n).addresses.filter fun e => !decide (e ∈ es) } := by
  rw [State.freeEntries, State.slot]
  simp

theorem way_freeEntries (es : List (Fin 96)) (k : Fin 64) (w : Fin 4) :
    ((s.freeEntries es).bucket k)[w] = emptyWay es (s.bucket k)[w] := by
  rw [State.freeEntries, State.bucket]
  simp

/-! ### Patterns -/

@[simp] theorem pattern_setPattern (p q : Fin 32) (x : Pattern) :
    (s.setPattern p x).pattern q = if p = q then x else s.pattern q := by
  simp [State.pattern, State.setPattern, Vector.getElem_set, Fin.ext_iff]

@[simp] theorem pattern_releasePatterns (ps : List (Fin 32)) (q : Fin 32) :
    (s.releasePatterns ps).pattern q =
      if q ∈ ps then { s.pattern q with refs := (s.pattern q).refs - 1 } else s.pattern q := by
  rw [State.releasePatterns, State.pattern]
  simp

/-! ### A slot that becomes VACANT -/

@[simp] theorem slot_becomeVacant (n m : Fin 16) :
    (s.becomeVacant n).slot m =
      if n = m then { counters := (s.slot m).counters }
      else { s.slot m with
        addresses := (s.slot m).addresses.filter fun e => !decide (e ∈ (s.slot n).addresses) } := by
  by_cases h : n = m <;> simp [State.becomeVacant, h]

@[simp] theorem entry_becomeVacant (n : Fin 16) (c : Fin 96) :
    (s.becomeVacant n).entry c = if c ∈ (s.slot n).addresses then (s.entry c).free else s.entry c :=
  entry_freeEntries s _ c

@[simp] theorem binding_becomeVacant (n : Fin 16) (c : Fin 96) :
    (s.becomeVacant n).binding c = if c ∈ (s.slot n).addresses then none else s.binding c :=
  binding_freeEntries s _ c

@[simp] theorem pattern_becomeVacant (n : Fin 16) (q : Fin 32) :
    (s.becomeVacant n).pattern q =
      if q ∈ (s.slot n).patterns then { s.pattern q with refs := (s.pattern q).refs - 1 } else s.pattern q :=
  pattern_releasePatterns (s.freeEntries (s.slot n).addresses) _ q

theorem way_becomeVacant (n : Fin 16) (k : Fin 64) (w : Fin 4) :
    ((s.becomeVacant n).bucket k)[w] = emptyWay (s.slot n).addresses (s.bucket k)[w] :=
  way_freeEntries s _ k w

/-! ### Insertion -/

@[simp] theorem entry_insert (n : Fin 16) (a : Addr) (e c : Fin 96) (w : Fin 4) :
    (s.insert n a e w).entry c =
      if e = c then { s.entry c with binding := some { owner := n, addr := a } } else s.entry c := by
  have h : (s.insert n a e w).entry c =
      (s.setEntry e { s.entry e with binding := some { owner := n, addr := a } }).entry c := rfl
  rw [h, entry_setEntry]
  by_cases hc : e = c <;> simp [hc]

@[simp] theorem binding_insert (n : Fin 16) (a : Addr) (e c : Fin 96) (w : Fin 4) :
    (s.insert n a e w).binding c = if e = c then some { owner := n, addr := a } else s.binding c := by
  by_cases hc : e = c <;> simp [State.binding, hc]

@[simp] theorem slot_insert (n m : Fin 16) (a : Addr) (e : Fin 96) (w : Fin 4) :
    (s.insert n a e w).slot m =
      if n = m then { s.slot m with addresses := (s.slot m).addresses ++ [e] } else s.slot m := by
  rw [State.insert, slot_modSlot]
  rfl

theorem way_insert (n : Fin 16) (a : Addr) (e : Fin 96) (w v : Fin 4) (k : Fin 64) :
    ((s.insert n a e w).bucket k)[v] = if bucketOf a = k ∧ w = v then some e else (s.bucket k)[v] := by
  have h : (s.insert n a e w).bucket k = (s.index.set (bucketOf a) ((s.bucket (bucketOf a)).set w (some e)))[k] := rfl
  rw [h]
  by_cases hk : bucketOf a = k
  · subst hk
    simp [Vector.getElem_set, Fin.ext_iff]
  · have : ¬ ((bucketOf a : Fin 64) : Nat) = k := fun e => hk (Fin.ext e)
    simp [hk, this, State.bucket]

end Sys2Proof.Machine
end

