-- ==== Sys2Proof/Laws/Queue.lean ====
section
/-! SUPPORT. Laws/Queue.lean: what the reply queue and the transmitter can do within an event, said once: they move items and pending
duties, and count discards, and touch nothing else. -/

namespace Sys2Proof.Machine

/-- `t` is `s` but for the queue, the transmitter, the discards counted, and pending duties that became items. -/
structure QueueMoved (s t : State) : Prop where
  slots : t.slots = s.slots
  lines : t.lines = s.lines
  index : t.index = s.index
  patterns : t.patterns = s.patterns
  settings : t.settings = s.settings
  deviceAttention : t.deviceAttention = s.deviceAttention
  counters : ∃ n, t.counters = { s.counters with itemsDiscarded := n }
  link : t.link = s.link
  lastEnded : t.lastEnded = s.lastEnded
  mailbox : t.mailbox = s.mailbox
  port : t.port = s.port
  now : t.now = s.now
  resetAsserted : t.resetAsserted = s.resetAsserted
  pending : t.pending = s.pending
  entry : ∀ e, t.entry e = s.entry e ∨ t.entry e = (s.entry e).modBinding fun b => { b with duty := none }

namespace QueueMoved

theorem refl (s : State) : QueueMoved s s :=
  ⟨rfl, rfl, rfl, rfl, rfl, rfl, ⟨_, rfl⟩, rfl, rfl, rfl, rfl, rfl, rfl, rfl, fun _ => .inl rfl⟩

theorem trans {s t u : State} (h : QueueMoved s t) (k : QueueMoved t u) : QueueMoved s u where
  slots := k.slots.trans h.slots
  lines := k.lines.trans h.lines
  index := k.index.trans h.index
  patterns := k.patterns.trans h.patterns
  settings := k.settings.trans h.settings
  deviceAttention := k.deviceAttention.trans h.deviceAttention
  counters := by
    obtain ⟨n, hn⟩ := h.counters
    obtain ⟨m, hm⟩ := k.counters
    exact ⟨m, by rw [hm, hn]⟩
  link := k.link.trans h.link
  lastEnded := k.lastEnded.trans h.lastEnded
  mailbox := k.mailbox.trans h.mailbox
  port := k.port.trans h.port
  now := k.now.trans h.now
  resetAsserted := k.resetAsserted.trans h.resetAsserted
  pending := k.pending.trans h.pending
  entry e := by
    have map2 : ∀ x : Entry, (x.modBinding fun b => { b with duty := none }).modBinding (fun b => { b with duty := none })
        = x.modBinding fun b => { b with duty := none } := by
      intro x
      cases x with
      | mk g b => cases b <;> rfl
    rcases h.entry e with h | h <;> rcases k.entry e with k | k <;> rw [k, h] <;> simp [map2]

theorem slot {s t : State} (h : QueueMoved s t) (n : Fin 16) : t.slot n = s.slot n := by
  simp [State.slot, h.slots]

theorem pattern {s t : State} (h : QueueMoved s t) (p : Fin 32) : t.pattern p = s.pattern p := by
  simp [State.pattern, h.patterns]

theorem bucket {s t : State} (h : QueueMoved s t) (k : Fin 64) : t.bucket k = s.bucket k := by
  simp [State.bucket, h.index]

theorem line {s t : State} (h : QueueMoved s t) (n : Fin 16) : t.line n = s.line n := by
  simp [State.line, h.lines]

theorem gen {s t : State} (h : QueueMoved s t) (e : Fin 96) : (t.entry e).gen = (s.entry e).gen := by
  rcases h.entry e with h | h <;> rw [h]
  rfl

/-- An allocated entry keeps its whole binding but for a duty that became an item. -/
theorem binding {s t : State} (h : QueueMoved s t) (e : Fin 96) :
    t.binding e = s.binding e ∨ t.binding e = (s.binding e).map fun b => { b with duty := none } := by
  rcases h.entry e with h | h
  · exact .inl (congrArg Entry.binding h)
  · exact .inr (congrArg Entry.binding h)

theorem claim {s t : State} (h : QueueMoved s t) (e : Fin 96) : t.claim e = s.claim e := by
  rcases h.binding e with h | h <;> simp [State.claim, h, Option.map_map, Function.comp_def]

/-- A duty pending after it was pending before. -/
theorem duty {s t : State} (h : QueueMoved s t) (e : Fin 96) : t.duty e = s.duty e ∨ t.duty e = none := by
  rcases h.binding e with h | h
  · exact .inl (by simp [State.duty, h])
  · right
    cases hb : s.binding e <;> simp [State.duty, h, hb]

end QueueMoved

/-! ### Admission -/

/-- A duty offered where none is pending, the link is down or the queue is full: nothing (R100). -/
theorem offerDuty_waits (s : State) (e : Fin 96)
    (h : s.duty e = none ∨ s.link = false ∨ 16 ≤ s.queue.length) : s.offerDuty e = s := by
  unfold State.offerDuty
  cases hd : s.duty e with
  | none => rfl
  | some d =>
    rcases h with h | h | h
    · simp [hd] at h
    · simp [h]
    · simp [Config.queueLimit, Nat.not_lt.mpr h]

/-- A duty offered with the link up and room: it becomes an item at the tail (R98, R100). -/
theorem offerDuty_taken (s : State) (e : Fin 96) (d : Duty) (hd : s.duty e = some d) (hl : s.link = true)
    (hq : s.queue.length < 16) :
    s.offerDuty e = { s.modBinding e (fun b => { b with duty := none }) with
      queue := s.queue ++ [.duty d e (s.entry e).gen] } := by
  unfold State.offerDuty
  simp [hd, hl, hq, Config.queueLimit]

theorem offerDuty_moved (s : State) (e : Fin 96) : QueueMoved s (s.offerDuty e) := by
  by_cases h : s.duty e = none ∨ s.link = false ∨ 16 ≤ s.queue.length
  · rw [offerDuty_waits s e h]
    exact .refl s
  · push Not at h
    obtain ⟨d, hd⟩ := Option.ne_none_iff_exists'.mp h.1
    rw [offerDuty_taken s e d hd (by simpa using h.2.1) h.2.2]
    refine ⟨rfl, rfl, rfl, rfl, rfl, rfl, ⟨_, rfl⟩, rfl, rfl, rfl, rfl, rfl, rfl, rfl, fun c => ?_⟩
    have hc : (State.entry { s.modBinding e (fun b => { b with duty := none }) with
      queue := s.queue ++ [.duty d e (s.entry e).gen] } c)
        = (s.modBinding e (fun b => { b with duty := none })).entry c := rfl
    rw [hc, entry_modBinding]
    by_cases he : e = c
    · right; simp [he]
    · left; simp [he]

theorem foldl_offerDuty_moved (l : List (Fin 96)) (s : State) : QueueMoved s (l.foldl State.offerDuty s) := by
  induction l generalizing s with
  | nil => exact .refl s
  | cons e l ih => exact (offerDuty_moved s e).trans (ih _)

theorem offerDuties_moved (s : State) (es : List (Fin 96)) : QueueMoved s (s.offerDuties es) :=
  foldl_offerDuty_moved _ s

theorem offerAll_moved (s : State) : QueueMoved s s.offerAll := foldl_offerDuty_moved _ s

theorem givePlace_moved (s : State) : QueueMoved s s.givePlace := by
  unfold State.givePlace
  split
  · exact offerDuty_moved s _
  · exact .refl s

/-! ### The transmitter -/

theorem takeHead_moved (s : State) : QueueMoved s s.takeHead := by
  unfold State.takeHead
  split
  · exact .refl s
  · rename_i item rest hq
    have h0 : QueueMoved s { s with queue := rest } :=
      ⟨rfl, rfl, rfl, rfl, rfl, rfl, ⟨_, rfl⟩, rfl, rfl, rfl, rfl, rfl, rfl, rfl, fun _ => .inl rfl⟩
    have h := h0.trans (givePlace_moved _)
    dsimp only
    split
    · exact h.trans ⟨rfl, rfl, rfl, rfl, rfl, rfl, ⟨_, rfl⟩, rfl, rfl, rfl, rfl, rfl, rfl, rfl, fun _ => .inl rfl⟩
    · exact h.trans ⟨rfl, rfl, rfl, rfl, rfl, rfl, ⟨_, rfl⟩, rfl, rfl, rfl, rfl, rfl, rfl, rfl, fun _ => .inl rfl⟩

theorem takeItems_moved (k : Nat) (s : State) : QueueMoved s (State.takeItems k s) := by
  induction k generalizing s with
  | zero => exact .refl s
  | succ k ih =>
    unfold State.takeItems
    split
    · exact (takeHead_moved s).trans (ih _)
    · exact .refl s

/-- The take at the end of an event moves items and duties only (R101, R103, R105). -/
theorem serve_moved (s : State) : QueueMoved s s.serve := takeItems_moved _ s

/-- With nothing to take, the end of an event changes nothing (R103). -/
theorem serve_idle (s : State) (h : s.canTake = false) : s.serve = s := by
  unfold State.serve
  cases s.queue.length + s.waiting with
  | zero => rfl
  | succ k => simp [State.takeItems, h]

/-! ### Events and commands -/

/-- An event taken while RESET_N is deasserted (R103). -/
theorem event_running (f : State → State) (s : State) (h : s.resetAsserted = false) : event f s = .next (f s).serve := by
  simp [event, h]

/-- An event that leaves nothing to take. -/
theorem event_settled (f : State → State) (s : State) (h : s.resetAsserted = false) (k : (f s).canTake = false) :
    event f s = .next (f s) := by
  rw [event_running f s h, serve_idle _ k]

/-- While RESET_N is asserted an event changes nothing (log 9). -/
theorem event_reset (f : State → State) (s : State) (h : s.resetAsserted = true) : event f s = .next s := by
  simp [event, h]

/-- Whatever an event does, its last act is the transmitter's. -/
theorem event_cases (f : State → State) (s t : State) (h : event f s = .next t) :
    (s.resetAsserted = true ∧ t = s) ∨ (s.resetAsserted = false ∧ t = (f s).serve) := by
  cases hr : s.resetAsserted with
  | true => rw [event_reset f s hr] at h; simp_all
  | false => rw [event_running f s hr] at h; simp_all

/-- A GO outside IDLE (R159; log 3). -/
theorem runCommand_busy (i : Instr) (body : State → Reply) (s : State) (h : s.mailbox.state ≠ .idle) :
    runCommand i body s = s.misuse := by
  unfold runCommand
  cases hm : s.mailbox.state <;> simp_all

/-- A GO in IDLE is the body on the command area that spells the command (R159, R168; log 2). -/
theorem runCommand_idle (i : Instr) (body : State → Reply) (s : State) (h : s.mailbox.state = .idle) :
    runCommand i body s =
      match body (s.placeCommand i) with
      | .refuse r => (s.placeCommand i).complete r []
      | .done data t => t.complete .ok data
      | .started t => t := by
  cases hb : body (s.placeCommand i) <;> simp [runCommand, h, hb]

@[simp] theorem canTake_placeCommand (s : State) (i : Instr) : (s.placeCommand i).canTake = s.canTake := rfl
@[simp] theorem canTake_complete (s : State) (r : Result) (d : List Byte) : (s.complete r d).canTake = s.canTake := rfl
@[simp] theorem canTake_misuse (s : State) : s.misuse.canTake = s.canTake := rfl

/-! ### Steps -/

/-- The front command runs on the queue's rest. -/
theorem step_cons (s : State) (c : Instr) (rest : List Instr) (h : s.pending = c :: rest) :
    step s = exec c { s with pending := rest } := by
  simp [step, h]

theorem step_nil (s : State) (h : s.pending = []) : step s = .next (tick s) := by
  simp [step, h]

end Sys2Proof.Machine
end

