-- ==== Sys2Proof/Laws/Commands.lean ====
section
/-! SUPPORT. Laws/Commands.lean: the GO of a command in a ready part, by what its body replies; and the transmitter's part of an event. -/

namespace Sys2Proof.Machine

/-- A refused command leaves the records as they were (R168). -/
theorem go_refused {i : Instr} {body : State → Reply} {s : State} {r : Result} (h : Ready s)
    (hb : body (s.placeCommand i) = .refuse r) : event (runCommand i body) s = .next (refusal i s r) := by
  have hc : runCommand i body s = refusal i s r := by
    rw [runCommand_idle i body s h.2, hb]
    rfl
  rw [event_settled _ s h.1.1 (by rw [hc]; exact h.1.2), hc]

/-- A command carried out within its GO that leaves nothing to take (R168). -/
theorem go_done {i : Instr} {body : State → Reply} {s t : State} {data : List Byte} (h : Ready s)
    (hb : body (s.placeCommand i) = .done data t) (ht : t.canTake = false) :
    event (runCommand i body) s = .next (t.complete .ok data) := by
  have hc : runCommand i body s = t.complete .ok data := by
    rw [runCommand_idle i body s h.2, hb]
  rw [event_settled _ s h.1.1 (by rw [hc]; exact ht), hc]

/-- A command carried out within its GO, whatever it leaves to take (R103, R168). -/
theorem go_done_serve {i : Instr} {body : State → Reply} {s t : State} {data : List Byte} (h : Ready s)
    (hb : body (s.placeCommand i) = .done data t) :
    event (runCommand i body) s = .next (t.complete .ok data).serve := by
  rw [event_running _ s h.1.1, runCommand_idle i body s h.2, hb]

/-- A RELEASE with announcement (R160). -/
theorem go_started {i : Instr} {body : State → Reply} {s t : State} (h : Ready s)
    (hb : body (s.placeCommand i) = .started t) : event (runCommand i body) s = .next t.serve := by
  rw [event_running _ s h.1.1, runCommand_idle i body s h.2, hb]

theorem QueueMoved.transmitOnly {s t : State} (h : QueueMoved s t) : TransmitOnly s t := by
  refine ⟨?_, ?_, h.entry⟩
  · obtain ⟨h1, h2, h3, h4, h5, h6, -, h8, h9, h10, h11, h12, h13, h14, -⟩ := h
    cases t
    simp only at *
    subst_vars
    rfl
  · obtain ⟨n, hn⟩ := h.counters
    rw [hn]

/-- While the link is down nothing is taken. -/
theorem canTake_link_down {s : State} (h : s.link = false) : s.canTake = false := by simp [State.canTake, h]

/-- While the transmitter is sending nothing is taken. -/
theorem canTake_sending {s : State} (h : s.tx ≠ none) : s.canTake = false := by
  cases hx : s.tx with
  | none => exact absurd hx h
  | some x => simp [State.canTake, hx]

/-- An event whose own effect is `u`, up to the queue. -/
theorem event_transmitOnly {f : State → State} {s u : State} (hr : s.resetAsserted = false) (h : QueueMoved u (f s)) :
    ∃ t, event f s = .next t ∧ TransmitOnly u t :=
  ⟨_, event_running f s hr, (h.trans (serve_moved _)).transmitOnly⟩

/-- Offers with the link down: every duty waits (R100). -/
theorem foldl_offerDuty_waits (l : List (Fin 96)) (s : State) (h : s.link = false) : l.foldl State.offerDuty s = s := by
  induction l with
  | nil => rfl
  | cons e l ih => rw [List.foldl_cons, offerDuty_waits s e (.inr (.inl h)), ih]

theorem offerDuties_waits (s : State) (es : List (Fin 96)) (h : s.link = false) : s.offerDuties es = s :=
  foldl_offerDuty_waits _ s h

end Sys2Proof.Machine
end

