-- ==== Sys2Proof/Laws/Frames.lean ====
section
/-! SUPPORT. Laws/Frames.lean: bytes and numbers, the fields of a frame read from its parts, the checksum in closed form, and the fields of
the frames the part builds. -/

namespace Sys2Proof.Machine

/-! ### Bytes and fields -/

@[simp] theorem length_toBytesBE (n x : Nat) : (toBytesBE n x).length = n := by
  induction n with
  | zero => rfl
  | succ n ih => simp [toBytesBE, ih]

theorem ofBytesBE_append (l m : List Byte) : ofBytesBE (l ++ m) = ofBytesBE l * 256 ^ m.length + ofBytesBE m := by
  have h : ∀ (m : List Byte) (a : Nat),
      m.foldl (fun acc b => acc * 256 + b.toNat) a = a * 256 ^ m.length + m.foldl (fun acc b => acc * 256 + b.toNat) 0 := by
    intro m
    induction m with
    | nil => simp
    | cons b m ih =>
      intro a
      rw [List.foldl_cons, ih, List.foldl_cons, ih (0 * 256 + b.toNat), List.length_cons]
      ring
  rw [ofBytesBE, List.foldl_append, h]
  rfl

/-- Reading back the bytes of a number. -/
theorem ofBytesBE_toBytesBE (n x : Nat) : ofBytesBE (toBytesBE n x) = x % 256 ^ n := by
  induction n with
  | zero => simp [toBytesBE, ofBytesBE, Nat.mod_one]
  | succ n ih =>
    have h := ofBytesBE_append [BitVec.ofNat 8 (x / 256 ^ n)] (toBytesBE n x)
    rw [List.singleton_append, length_toBytesBE, ih] at h
    rw [toBytesBE, h]
    have h1 : ofBytesBE [BitVec.ofNat 8 (x / 256 ^ n)] = x / 256 ^ n % 256 := by simp [ofBytesBE]
    rw [h1, Nat.pow_succ, Nat.mod_mul, Nat.mul_comm]
    omega

theorem read_number {n x : Nat} (h : x < 256 ^ n) : ofBytesBE (toBytesBE n x) = x := by
  rw [ofBytesBE_toBytesBE, Nat.mod_eq_of_lt h]

/-! ### The ones'-complement sum (R207) -/

/-- The sum of the words of `l` before any carry is added back. -/
def wordTotal (l : List Byte) : Nat :=
  ((List.range l.length).map fun k => (byteAt l k).toNat * if k % 2 = 0 then 256 else 1).sum

theorem wordTotal_cons_cons (a b : Byte) (l : List Byte) : wordTotal (a :: b :: l) = a.toNat * 256 + b.toNat + wordTotal l := by
  have h : ∀ k, (k + 1 + 1) % 2 = k % 2 := by omega
  simp only [wordTotal, List.length_cons, List.range_succ_eq_map, List.map_cons, List.map_map, List.sum_cons, Function.comp_def]
  simp [byteAt, h]
  omega

/-- Carries added back one word at a time are carries added back at the end. -/
theorem onesAdd_carry (x t : Nat) (h : x < 65536) :
    onesAdd x (if t = 0 then 0 else (t - 1) % 65535 + 1) = if x + t = 0 then 0 else (x + t - 1) % 65535 + 1 := by
  unfold onesAdd
  split_ifs <;> omega

/-- The ones'-complement sum in closed form (R207). -/
theorem onesSum_eq_wordSum (l : List Byte) : onesSum l = wordSum l := by
  change onesSum l = if wordTotal l = 0 then 0 else (wordTotal l - 1) % 65535 + 1
  induction l using onesSum.induct with
  | case1 => simp [onesSum, wordTotal]
  | case2 a =>
    have := a.isLt
    simp [onesSum, wordTotal, byteAt]
    split <;> omega
  | case3 a b rest ih =>
    have := a.isLt
    have := b.isLt
    rw [onesSum, ih, wordTotal_cons_cons]
    exact onesAdd_carry _ _ (by omega)

/-! ### Parts of a frame -/

theorem slice_append_left {a b : List Byte} {off n : Nat} (h : off + n ≤ a.length) : slice (a ++ b) off n = slice a off n := by
  rw [slice, slice, List.drop_append_of_le_length (by omega), List.take_append_of_le_length (by simp; omega)]

theorem slice_append_right {a b : List Byte} {off n : Nat} (h : a.length ≤ off) :
    slice (a ++ b) off n = slice b (off - a.length) n := by
  rw [slice, slice, List.drop_append, List.drop_of_length_le h, List.nil_append]

theorem slice_cons {a : Byte} {l : List Byte} {off n : Nat} (h : 0 < off) : slice (a :: l) off n = slice l (off - 1) n :=
  slice_append_right (a := [a]) h

theorem slice_cons_zero {a : Byte} {l : List Byte} {n : Nat} (h : 0 < n) : slice (a :: l) 0 n = a :: slice l 0 (n - 1) := by
  obtain ⟨m, rfl⟩ : ∃ m, n = m + 1 := ⟨n - 1, by omega⟩
  simp [slice]

@[simp] theorem slice_none (l : List Byte) (off : Nat) : slice l off 0 = [] := by simp [slice]

theorem slice_all {l : List Byte} {n : Nat} (h : l.length ≤ n) : slice l 0 n = l := by
  simp [slice, h]

theorem slice_split (l : List Byte) (off m k : Nat) : slice l off (m + k) = slice l off m ++ slice l (off + m) k := by
  simp [slice, List.take_add, List.drop_drop]

theorem field_append_left {a b : List Byte} {off n : Nat} (h : off + n ≤ a.length) : field (a ++ b) off n = field a off n :=
  congrArg ofBytesBE (slice_append_left h)

theorem field_append_right {a b : List Byte} {off n : Nat} (h : a.length ≤ off) :
    field (a ++ b) off n = field b (off - a.length) n :=
  congrArg ofBytesBE (slice_append_right h)

theorem field_cons {a : Byte} {l : List Byte} {off n : Nat} (h : 0 < off) : field (a :: l) off n = field l (off - 1) n :=
  congrArg ofBytesBE (slice_cons h)

theorem field_all (l : List Byte) (n : Nat) (h : l.length = n) : field l 0 n = ofBytesBE l := by
  subst h
  simp [field, slice]

@[simp] theorem field_none (l : List Byte) (off : Nat) : field l off 0 = 0 := by simp [field, slice, ofBytesBE]

/-- The first byte of a field is its most significant. -/
theorem field_cons_zero {a : Byte} {l : List Byte} {n : Nat} (h : 0 < n) :
    field (a :: l) 0 n = a.toNat * 256 ^ (min (n - 1) l.length) + field l 0 (n - 1) := by
  obtain ⟨m, rfl⟩ : ∃ m, n = m + 1 := ⟨n - 1, by omega⟩
  have h1 := ofBytesBE_append [a] (l.take m)
  have h2 : ofBytesBE [a] = a.toNat := by simp [ofBytesBE]
  rw [h2] at h1
  simpa [field, slice] using h1

theorem field_number {n x : Nat} (h : x < 256 ^ n) : field (toBytesBE n x) 0 n = x := by
  rw [field_all _ _ (length_toBytesBE n x), read_number h]

@[simp] theorem field_link (a : LinkAddr) : field (toBytesBE 6 a.toNat) 0 6 = a.toNat :=
  field_number (by have := a.isLt; omega)
@[simp] theorem field_v4 (a : BitVec 32) : field (toBytesBE 4 a.toNat) 0 4 = a.toNat :=
  field_number (by have := a.isLt; omega)
@[simp] theorem field_v6 (a : BitVec 128) : field (toBytesBE 16 a.toNat) 0 16 = a.toNat :=
  field_number (by have := a.isLt; omega)

/-! ### The fields of frames sent (R203 to R208) -/

/-- A V4 frame as built (R204, R208). -/
theorem v4Frame_fields (dest source : LinkAddr) (operation : Nat) (senderHw : LinkAddr) (sender : BitVec 32)
    (targetHw : LinkAddr) (target : BitVec 32) (ho : operation < 256 ^ 2) :
    V4Fields (v4Frame dest source operation senderHw sender targetHw target) dest source operation senderHw sender targetHw target := by
  have h42 : ∀ k, 42 ≤ k → byteAt (v4Frame dest source operation senderHw sender targetHw target) k = 0 := by
    intro k hk
    rw [v4Frame, byteAt, List.getD_append_right _ _ _ _ (by simpa [linkBytes] using hk)]
    simp only [List.getD_eq_getElem?_getD, List.getElem?_replicate]
    split <;> rfl
  have hop := field_number ho
  refine ⟨by simp [v4Frame, linkBytes], ?_, ?_, ?_, ?_, ?_, ?_, ?_, ?_, ?_, ?_, ?_, ?_, h42⟩ <;>
    simp [v4Frame, linkBytes, field_append_left, field_append_right, field_cons, field_cons_zero, field_number, typeV4Resolution,
      hop]

/-- The checksum field holds the checksum of the frame's own bytes (R207). -/
theorem v6Frame_checksum (dest source : LinkAddr) (ipSource ipDest : BitVec 128) (type flags : Byte) (target : BitVec 128)
    (option : Option LinkAddr) :
    let f := v6Frame dest source ipSource ipDest (icmpMessage type flags target option)
    field f 56 2 = frameChecksum f := by
  have hc : ∀ a b m, icmpChecksum a b m < 256 ^ 2 := by
    intro a b m
    simp only [icmpChecksum]
    omega
  have hn := fun a b m => field_number (hc a b m)
  intro f
  have h22 : slice f 22 32 = slice f 22 16 ++ slice f 38 16 := slice_split f 22 16 16
  have hl : field f 18 2 = if option.isSome then 32 else 24 := by
    cases option <;>
      simp [f, v6Frame, icmpMessage, withChecksum, linkBytes, field_append_left, field_append_right, field_cons, field_number,
        typeIPv6]
  rw [frameChecksum, hl, h22, ← onesSum_eq_wordSum]
  cases option <;>
    (simp [f, v6Frame, icmpMessage, withChecksum, linkBytes, field_append_left, field_append_right, field_cons, hn, typeIPv6,
      slice_append_left, slice_append_right, slice_cons, slice_cons_zero, slice_all]
     simp [icmpChecksum])

/-- A V6 neighbour message as built (R205, R207, R208). -/
theorem v6Frame_fields (dest source : LinkAddr) (ipSource ipDest : BitVec 128) (type flags : Byte) (target : BitVec 128)
    (option : Option LinkAddr) :
    V6Fields (v6Frame dest source ipSource ipDest (icmpMessage type flags target option)) dest source ipSource ipDest
      type.toNat flags.toNat target option := by
  have h := v6Frame_checksum dest source ipSource ipDest type flags target option
  cases option with
  | none =>
    refine ⟨?_, ?_, ?_, ?_, ?_, ?_, ?_, ?_, ?_, ?_, h, ?_, ?_, ?_, ?_, ?_⟩ <;>
      simp [v6Frame, icmpMessage, withChecksum, linkBytes, field_append_left, field_append_right, field_cons, field_cons_zero,
        field_number, typeIPv6]
  | some a =>
    refine ⟨?_, ?_, ?_, ?_, ?_, ?_, ?_, ?_, ?_, ?_, h, ?_, ?_, ?_, ?_, ?_, ?_, ?_, ?_⟩ <;>
      simp [v6Frame, icmpMessage, withChecksum, linkBytes, field_append_left, field_append_right, field_cons, field_cons_zero,
        field_number, typeIPv6]

end Sys2Proof.Machine
end

