-- ==== Sys2Proof/Laws/Offers.lean ====
section
/-! SUPPORT. Laws/Offers.lean: what the offering of duties, the take after it and the answer step can do, said once in the shapes of
Safety.lean (`Offered`, `Served`, `Answered`). -/

namespace Sys2Proof.Machine

/-! ### Offers -/

theorem offerDuty_entry_other (s : State) (e c : Fin 96) (h : c ≠ e) : (s.offerDuty e).entry c = s.entry c := by
  by_cases hw : s.duty e = none ∨ s.link = false ∨ 16 ≤ s.queue.length
  · rw [offerDuty_waits s e hw]
  · push Not at hw
    obtain ⟨d, hd⟩ := Option.ne_none_iff_exists'.mp hw.1
    rw [offerDuty_taken s e d hd (by simpa using hw.2.1) hw.2.2]
    change (s.modBinding e _).entry c = _
    rw [entry_modBinding, if_neg (Ne.symm h)]

/-- The duties that become items when the entries `l` are offered one after another. -/
def State.offerTaken (s : State) (l : List (Fin 96)) : List (Fin 96) :=
  if s.link = true then (l.filter fun e => (s.duty e).isSome).take (16 - s.queue.length) else []

theorem duty_congr {s t : State} {e : Fin 96} (h : t.entry e = s.entry e) : t.duty e = s.duty e := by
  simp [State.duty, State.binding, h]

/-- Offers one after another, in the order of a list without duplicates (R98, R100). -/
theorem foldl_offerDuty_offered (l : List (Fin 96)) (hl : l.Nodup) (s : State) :
    let t := l.foldl State.offerDuty s
    t = { s with entries := t.entries, queue := t.queue }
      ∧ t.queue = s.queue ++ (s.offerTaken l).filterMap (fun e => (s.duty e).map fun d => .duty d e (s.entry e).gen)
      ∧ ∀ e, t.entry e = if e ∈ s.offerTaken l then (s.entry e).modBinding (fun b => { b with duty := none }) else s.entry e := by
  induction l generalizing s with
  | nil => simp [State.offerTaken]
  | cons e l ih =>
    have hn := List.nodup_cons.mp hl
    by_cases hw : s.duty e = none ∨ s.link = false ∨ 16 ≤ s.queue.length
    · have ht : s.offerTaken (e :: l) = s.offerTaken l := by
        rcases hw with h | h | h
        · simp [State.offerTaken, h]
        · simp [State.offerTaken, h]
        · simp [State.offerTaken, Nat.sub_eq_zero_of_le h]
      rw [List.foldl_cons, offerDuty_waits s e hw, ht]
      exact ih hn.2 s
    · push Not at hw
      obtain ⟨d, hd⟩ := Option.ne_none_iff_exists'.mp hw.1
      have hlink : s.link = true := by simpa using hw.2.1
      have hother := fun c h => offerDuty_entry_other s e c h
      have hs := offerDuty_taken s e d hd hlink hw.2.2
      have hq : (s.offerDuty e).queue = s.queue ++ [.duty d e (s.entry e).gen] := by rw [hs]
      have hk : (s.offerDuty e).link = true := by rw [(offerDuty_moved s e).link, hlink]
      have he : (s.offerDuty e).entry e = (s.entry e).modBinding fun b => { b with duty := none } := by
        rw [hs]
        change (s.modBinding e _).entry e = _
        rw [entry_modBinding, if_pos rfl]
      have hf : (l.filter fun c => ((s.offerDuty e).duty c).isSome) = l.filter fun c => (s.duty c).isSome :=
        List.filter_congr fun c hc => by rw [duty_congr (hother c fun h => hn.1 (h ▸ hc))]
      have ht : s.offerTaken (e :: l) = e :: (s.offerDuty e).offerTaken l := by
        have h16 : 16 - s.queue.length = (16 - (s.queue.length + 1)) + 1 := by omega
        simp only [State.offerTaken, hlink, hk, if_true, hf, hq, List.length_append, List.length_cons, List.length_nil]
        rw [List.filter_cons, if_pos (by simp [hd]), h16, List.take_succ_cons]
      have hmem : ∀ c ∈ (s.offerDuty e).offerTaken l, c ≠ e := by
        intro c hc h
        subst h
        simp only [State.offerTaken, hk, if_true] at hc
        exact hn.1 (List.mem_of_mem_filter (List.mem_of_mem_take hc))
      obtain ⟨i1, i2, i3⟩ := ih hn.2 (s.offerDuty e)
      rw [List.foldl_cons]
      refine ⟨?_, ?_, fun c => ?_⟩
      · have hu : ∀ t : State, { s.offerDuty e with entries := t.entries, queue := t.queue }
            = { s with entries := t.entries, queue := t.queue } := fun t => by rw [hs]; rfl
        exact i1.trans (hu _)
      · rw [i2, hq, ht, List.filterMap_cons, hd]
        simp only [Option.map_some, List.append_assoc, List.cons_append, List.nil_append, List.append_cancel_left_eq,
          List.cons.injEq, true_and]
        exact List.filterMap_congr fun c hc => by
          rw [duty_congr (hother c (hmem c hc)), hother c (hmem c hc)]
      · rw [i3 c, ht]
        by_cases hc : c = e
        · subst hc
          rw [if_neg fun h => hmem c h rfl, if_pos List.mem_cons_self, he]
        · rw [hother c hc]
          simp [hc]

/-- The duties of the entries of an event are offered as `Offered` says (R98, R100). -/
theorem offerDuties_offered (s : State) (es : List (Fin 96)) : Offered s (s.offerDuties es) es := by
  have h := foldl_offerDuty_offered ((List.finRange 96).filter fun e => decide (e ∈ es))
    ((List.nodup_finRange 96).filter _) s
  have ht : s.offerTaken ((List.finRange 96).filter fun e => decide (e ∈ es))
      = if s.link = true then ((List.finRange 96).filter fun e => decide (e ∈ es) && (s.duty e).isSome).take (16 - s.queue.length)
        else [] := by
    simp only [State.offerTaken, List.filter_filter, Bool.and_comm]
  rw [ht] at h
  exact h

/-- Every waiting duty offered (R116). -/
theorem offerAll_offered (s : State) : Offered s s.offerAll (List.finRange 96) := by
  have h := offerDuties_offered s (List.finRange 96)
  simpa [State.offerDuties, State.offerAll] using h

theorem offerDuty_offered (s : State) (e : Fin 96) : Offered s (s.offerDuty e) [e] := by
  have h := offerDuties_offered s [e]
  have hf : ∀ e : Fin 96, ((List.finRange 96).filter fun c => decide (c ∈ [e])) = [e] := by decide
  rwa [State.offerDuties, hf] at h

theorem Offered.queueMoved {s t : State} {es : List (Fin 96)} (h : Offered s t es) : QueueMoved s t := by
  obtain ⟨h1, -, h3⟩ := h
  rw [h1]
  refine ⟨rfl, rfl, rfl, rfl, rfl, rfl, ⟨_, rfl⟩, rfl, rfl, rfl, rfl, rfl, rfl, rfl, fun e => ?_⟩
  change t.entry e = _ ∨ t.entry e = _
  rw [h3 e]
  exact (ite_eq_or_eq _ _ _).symm

/-- What the take at the end of an event does after duties were offered (R103, R116). -/
theorem Offered.served {u v : State} {es : List (Fin 96)} (h : Offered u v es) : Served u v := by
  refine ⟨(h.queueMoved.trans (serve_moved v)).transmitOnly, fun hl => ?_, fun hx => ?_⟩
  · have hv : v = u := by
      obtain ⟨h1, h2, h3⟩ := h
      simp only [hl, Bool.false_eq_true, if_false, List.not_mem_nil, List.filterMap_nil, List.append_nil] at h2 h3
      rw [h1, h2]
      have he : v.entries = u.entries := Vector.ext fun i hi => h3 ⟨i, hi⟩
      rw [he]
    rw [hv]
    exact serve_idle u (canTake_link_down hl)
  · refine serve_idle v (canTake_sending ?_)
    rw [h.1]
    exact hx

/-! ### The answer step -/

/-- The answer step against the records after the claim step (R90, R91, R99). -/
theorem answerStep_answered (v : State) (f : List Byte) (r : ResFrame) (evidence : Option (Fin 96)) :
    Answered v f r evidence (v.answerStep (sourceLink f) r evidence) := by
  have hh : ∀ c : ClaimState, c.isHeld = true ↔ c = .held ∨ c = .defended := by intro c; cases c <;> decide
  have ha : ∀ x : SlotState, x.answers = true ↔ x = .proxying ∨ x = .waking := by intro x; cases x <;> decide
  have key : ∀ e, v.answerEntry r evidence = some e ↔ ∃ a, r.asked = some a ∧ v.lookup a = some e ∧ evidence ≠ some e
      ∧ ∃ b, v.binding e = some b ∧ (b.claim = .held ∨ b.claim = .defended)
        ∧ ((v.slot b.owner).state = .proxying ∨ (v.slot b.owner).state = .waking) := by
    intro e
    unfold State.answerEntry
    cases hr : r.asked with
    | none => simp
    | some a =>
      simp only [Option.bind_some]
      cases hk : v.lookup a with
      | none => simp [hk]
      | some c =>
        cases hb : v.binding c with
        | none =>
          simp only [hb]
          constructor
          · simp
          · rintro ⟨a', h1, h2, -, b, h3, -⟩
            cases h1
            rw [hk] at h2
            cases h2
            rw [hb] at h3
            cases h3
        | some b =>
          simp only [hb]
          constructor
          · intro h
            split at h
            · rename_i hc
              cases h
              simp only [Bool.and_eq_true, bne_iff_ne, hh, ha] at hc
              exact ⟨a, rfl, hk, hc.2, b, hb, hc.1.1, hc.1.2⟩
            · cases h
          · rintro ⟨a', h1, h2, h3, b', h4, h5, h6⟩
            cases h1
            rw [hk] at h2
            cases h2
            rw [hb] at h4
            cases h4
            rw [if_pos]
            simp only [Bool.and_eq_true, bne_iff_ne, hh, ha]
            exact ⟨⟨h5, h6⟩, h3⟩
  refine ⟨fun h => ?_, fun a e h => ?_⟩
  · unfold State.answerStep
    cases he : v.answerEntry r evidence with
    | none => rfl
    | some e =>
      obtain ⟨a, h'⟩ := (key e).mp he
      exact absurd h' (h a e)
  · have he := (key e).mpr ⟨a, h⟩
    have hi : ∃ item, r.answer (sourceLink f) e (v.entry e).gen = some item := by
      have h1 := h.1
      cases r with
      | v4 q x y => cases q <;> simp [ResFrame.asked, ResFrame.answer] at h1 ⊢
      | v6 q x y => cases q <;> simp [ResFrame.asked, ResFrame.answer] at h1 ⊢
    obtain ⟨item, hi⟩ := hi
    refine ⟨item, hi, ?_⟩
    have hs : v.answerStep (sourceLink f) r evidence = v.offerAnswer item := by simp [State.answerStep, he, hi]
    rw [hs, State.offerAnswer]
    simp only [Bool.and_eq_true, decide_eq_true_eq]
    rfl

end Sys2Proof.Machine
end

