-- ==== Sys2Proof/Laws/Timers.lean ====
section
/-! SUPPORT. Laws/Timers.lean: what a count of the time base can do (R209): the events of a count are those due in it, each taken whole as
its command takes it, and time up to a later count is one count after another. -/

namespace Sys2Proof.Machine

/-! ### What an event leaves of the timers -/

/-- The probe timer that a binding record holds. -/
def State.probeDue (s : State) (e : Fin 96) : Option Nat := (s.binding e).bind (·.probeDue)

/-- The defence deadline that a binding record holds. -/
def State.defenceDue (s : State) (e : Fin 96) : Option Nat := (s.binding e).bind (·.defenceDue)

/-- `t` is in the count of `s`, and each of its timers is as in `s`, or stopped; those of the slots `free` may have been started. -/
structure TimersStop (free : Fin 16 → Prop) (s t : State) : Prop where
  now : t.now = s.now
  resetAsserted : t.resetAsserted = s.resetAsserted
  pulse : ∀ n, ¬ free n → (t.slot n).pulseDue = (s.slot n).pulseDue ∨ (t.slot n).pulseDue = none
  timeout : ∀ n, ¬ free n → (t.slot n).timeoutDue = (s.slot n).timeoutDue ∨ (t.slot n).timeoutDue = none
  probe : ∀ e, t.probeDue e = s.probeDue e ∨ t.probeDue e = none
  defence : ∀ e, t.defenceDue e = s.defenceDue e ∨ t.defenceDue e = none

namespace TimersStop

variable {free : Fin 16 → Prop} {s t u : State}

theorem refl (s : State) : TimersStop free s s :=
  ⟨rfl, rfl, fun _ _ => .inl rfl, fun _ _ => .inl rfl, fun _ => .inl rfl, fun _ => .inl rfl⟩

theorem trans (h : TimersStop free s t) (k : TimersStop free t u) : TimersStop free s u where
  now := k.now.trans h.now
  resetAsserted := k.resetAsserted.trans h.resetAsserted
  pulse n hn := (k.pulse n hn).elim (fun e => e ▸ h.pulse n hn) .inr
  timeout n hn := (k.timeout n hn).elim (fun e => e ▸ h.timeout n hn) .inr
  probe e := (k.probe e).elim (fun q => q ▸ h.probe e) .inr
  defence e := (k.defence e).elim (fun q => q ▸ h.defence e) .inr

/-- Queue and transmitter leave the timers alone. -/
theorem of_queueMoved (h : QueueMoved s t) : TimersStop free s t where
  now := h.now
  resetAsserted := h.resetAsserted
  pulse n _ := .inl (by rw [h.slot])
  timeout n _ := .inl (by rw [h.slot])
  probe e := .inl (by
    rcases h.binding e with q | q <;> rw [State.probeDue, State.probeDue, q]
    cases s.binding e <;> rfl)
  defence e := .inl (by
    rcases h.binding e with q | q <;> rw [State.defenceDue, State.defenceDue, q]
    cases s.binding e <;> rfl)

/-- A change of one slot record. -/
theorem modSlot (s : State) (n : Fin 16) (f : Slot → Slot)
    (h : ¬ free n → ((f (s.slot n)).pulseDue = (s.slot n).pulseDue ∨ (f (s.slot n)).pulseDue = none)
      ∧ ((f (s.slot n)).timeoutDue = (s.slot n).timeoutDue ∨ (f (s.slot n)).timeoutDue = none)) :
    TimersStop free s (s.modSlot n f) where
  now := rfl
  resetAsserted := rfl
  pulse m hm := by
    by_cases q : n = m
    · subst q; simpa using (h hm).1
    · simp [q]
  timeout m hm := by
    by_cases q : n = m
    · subst q; simpa using (h hm).2
    · simp [q]
  probe _ := .inl rfl
  defence _ := .inl rfl

/-- A change of some binding records that starts no timer. -/
theorem modBindings (s : State) (es : List (Fin 96)) (f : Binding → Binding)
    (h : ∀ b, ((f b).probeDue = b.probeDue ∨ (f b).probeDue = none) ∧ ((f b).defenceDue = b.defenceDue ∨ (f b).defenceDue = none)) :
    TimersStop free s (s.modBindings es f) where
  now := rfl
  resetAsserted := rfl
  pulse _ _ := .inl rfl
  timeout _ _ := .inl rfl
  probe e := by
    simp only [State.probeDue, binding_modBindings]
    split
    · cases s.binding e with
      | none => exact .inl rfl
      | some b => exact (h b).1
    · exact .inl rfl
  defence e := by
    simp only [State.defenceDue, binding_modBindings]
    split
    · cases s.binding e with
      | none => exact .inl rfl
      | some b => exact (h b).2
    · exact .inl rfl

/-- The same for one record. -/
theorem modBinding (s : State) (e : Fin 96) (f : Binding → Binding)
    (h : ∀ b, ((f b).probeDue = b.probeDue ∨ (f b).probeDue = none) ∧ ((f b).defenceDue = b.defenceDue ∨ (f b).defenceDue = none)) :
    TimersStop free s (s.modBinding e f) where
  now := rfl
  resetAsserted := rfl
  pulse _ _ := .inl rfl
  timeout _ _ := .inl rfl
  probe c := by
    simp only [State.probeDue, binding_modBinding]
    split
    · cases s.binding c with
      | none => exact .inl rfl
      | some b => exact (h b).1
    · exact .inl rfl
  defence c := by
    simp only [State.defenceDue, binding_modBinding]
    split
    · cases s.binding c with
      | none => exact .inl rfl
      | some b => exact (h b).2
    · exact .inl rfl

end TimersStop

/-! ### Each event of a count -/

theorem Binding.handBack_stops (m : Option AnswerMode) (b : Binding) :
    ((b.handBack m).probeDue = b.probeDue ∨ (b.handBack m).probeDue = none)
      ∧ ((b.handBack m).defenceDue = b.defenceDue ∨ (b.handBack m).defenceDue = none) := by
  unfold Binding.handBack
  split <;> simp

theorem Binding.endDefence_stops (b : Binding) :
    (b.endDefence.probeDue = b.probeDue ∨ b.endDefence.probeDue = none)
      ∧ (b.endDefence.defenceDue = b.defenceDue ∨ b.endDefence.defenceDue = none) := by
  unfold Binding.endDefence
  split <;> simp

theorem takeLevel_stops {free : Fin 16 → Prop} (s : State) (n : Fin 16) (v : Bool) : TimersStop free s (s.takeLevel n v) :=
  ⟨rfl, rfl, fun _ _ => .inl rfl, fun _ _ => .inl rfl, fun _ => .inl rfl, fun _ => .inl rfl⟩

theorem awakeRise_stops {free : Fin 16 → Prop} (n : Fin 16) (s : State) : TimersStop free s (awakeRise n s) := by
  unfold awakeRise
  refine (takeLevel_stops s n true).trans ?_
  dsimp only
  split
  · exact ((TimersStop.modBindings _ _ _ (Binding.handBack_stops _)).trans
      (TimersStop.modSlot _ _ _ fun _ => ⟨.inr rfl, .inr rfl⟩)).trans (.of_queueMoved (offerDuties_moved _ _))
  · exact .refl _

theorem awakeFall_stops {free : Fin 16 → Prop} (n : Fin 16) (s : State) : TimersStop free s (awakeFall n s) := by
  unfold awakeFall
  refine (takeLevel_stops s n false).trans ?_
  dsimp only
  split
  · exact ((TimersStop.modBindings _ _ _ fun _ => ⟨.inr rfl, .inr rfl⟩).trans
      (TimersStop.modSlot _ _ _ fun _ => ⟨.inl rfl, .inl rfl⟩)).trans (.of_queueMoved (offerDuties_moved _ _))
  · exact .refl _

theorem endOfProbing_stops {free : Fin 16 → Prop} (s : State) (n : Fin 16) : TimersStop free s (s.endOfProbing n) := by
  unfold State.endOfProbing
  split
  · split <;> exact .modSlot _ _ _ fun _ => ⟨.inl rfl, .inl rfl⟩
  · exact .refl _

theorem probeExpired_stops {free : Fin 16 → Prop} (e : Fin 96) (s : State) : TimersStop free s (s.probeExpired e) := by
  unfold State.probeExpired
  split
  · exact .refl _
  · split
    · exact (TimersStop.modBinding s e (fun b => { b with probeDue := none, duty := some .probe })
        fun _ => ⟨.inr rfl, .inl rfl⟩).trans (.of_queueMoved (offerDuty_moved _ e))
    · next b _ _ =>
      exact ((TimersStop.modBinding s e (Binding.endFinalWait (s.slot b.owner).mode) fun _ => ⟨.inr rfl, .inl rfl⟩).trans
        (.of_queueMoved (offerDuty_moved _ e))).trans (endOfProbing_stops _ _)

theorem defenceEnded_stops {free : Fin 16 → Prop} (e : Fin 96) (s : State) : TimersStop free s (s.defenceEnded e) :=
  .modBinding _ _ _ Binding.endDefence_stops

theorem pulseExpired_stops {free : Fin 16 → Prop} (n : Fin 16) (s : State) : TimersStop free s (s.pulseExpired n) :=
  .modSlot _ _ _ fun _ => ⟨.inr rfl, .inl rfl⟩

/-- A wake timeout may start the timers of its slot again, and no other (R131, R133). -/
theorem timeoutExpired_stops (n : Fin 16) (s : State) : TimersStop (· = n) s (s.timeoutExpired n) := by
  unfold State.timeoutExpired
  split
  · exact .modSlot _ _ _ fun h => absurd rfl h
  · exact (TimersStop.modBindings _ _ _ Binding.endDefence_stops).trans (.modSlot _ _ _ fun _ => ⟨.inr rfl, .inr rfl⟩)

theorem expire_stops {free : Fin 16 → Prop} {timer : State → Option Nat} {act : State → State} {s : State}
    (h : TimersStop free s (act s)) : TimersStop free s (expire timer act s) := by
  unfold expire
  split
  · exact .refl _
  · split
    · exact h
    · exact .refl _

/-- The slots whose timers an event can start. -/
def starts (i : Instr) (n : Fin 16) : Prop := i = .wakeTimeoutExpiry n

/-- An event of a count stays in its count, and starts no timer but those of the slot whose wake timeout it is. -/
theorem takeDue_stops (s : State) (i : Instr) : TimersStop (starts i) s (s.takeDue i) := by
  refine TimersStop.trans ?_ (.of_queueMoved (serve_moved _))
  unfold dueAction
  split
  · exact awakeRise_stops _ _
  · exact awakeFall_stops _ _
  · exact expire_stops (pulseExpired_stops _ _)
  · next n =>
    refine expire_stops ?_
    have h := timeoutExpired_stops n s
    exact ⟨h.now, h.resetAsserted, fun m hm => h.pulse m fun q => hm (by rw [starts, q]),
      fun m hm => h.timeout m fun q => hm (by rw [starts, q]), h.probe, h.defence⟩
  · exact expire_stops (probeExpired_stops _ _)
  · exact expire_stops (defenceEnded_stops _ _)
  · exact .refl _

/-! ### The events of a count as commands -/

/-- `i` is an event that a count can bring, and is not early: its timer is stopped, or due. -/
def OnTime (s : State) (i : Instr) : Prop :=
  match i with
  | .awakeRises _ | .awakeFalls _ => True
  | .pulseTimerExpiry n => ∀ d, (s.slot n).pulseDue = some d → d ≤ s.now
  | .wakeTimeoutExpiry n => ∀ d, (s.slot n).timeoutDue = some d → d ≤ s.now
  | .probeTimerExpiry e => ∀ d, s.probeDue e = some d → d ≤ s.now
  | .defenceDeadlineReached e => ∀ d, s.defenceDue e = some d → d ≤ s.now
  | _ => False

/-- An expiry that is not early is taken now. -/
theorem expiry_of_due {timer : State → Option Nat} {s : State} (act : State → State)
    (h : ∀ d, timer s = some d → d ≤ s.now) : expiry timer act s = expire timer act s := by
  unfold expiry expire
  cases q : timer s with
  | none => rfl
  | some d => simp only [h d q, if_true]

/-- The command of an event that is not early takes the event. -/
theorem exec_onTime {s : State} {i : Instr} (hr : s.resetAsserted = false) (h : OnTime s i) : exec i s = .next (s.takeDue i) := by
  unfold OnTime at h
  split at h
  · exact event_running _ _ hr
  · exact event_running _ _ hr
  · next n => exact (event_running _ _ hr).trans (by rw [expiry_of_due _ h]; rfl)
  · next n =>
    refine (event_running _ _ hr).trans ?_
    rw [expiry_of_due _ fun d q => h d (by
      rw [State.timeoutTimer] at q
      split at q
      · exact q
      · cases q)]
    rfl
  · next e =>
    refine (event_running _ _ hr).trans ?_
    rw [expiry_of_due _ fun d q => h d (by
      rw [State.probeTimer] at q
      rw [State.probeDue]
      cases hb : s.binding e with
      | none => rw [hb] at q; cases q
      | some b =>
        rw [hb, Option.bind_some] at q
        split at q
        · exact q
        · cases q)]
    rfl
  · next e =>
    refine (event_running _ _ hr).trans ?_
    rw [expiry_of_due _ fun d q => h d (by
      rw [State.defenceDeadline] at q
      rw [State.defenceDue]
      cases hb : s.binding e with
      | none => rw [hb] at q; cases q
      | some b =>
        rw [hb, Option.bind_some] at q
        split at q
        · exact q
        · cases q)]
    rfl
  · exact h.elim

/-- An event stays in time when another is taken before it, unless that is the wake timeout of its slot. -/
theorem OnTime.takeDue {s : State} {i j : Instr} (h : OnTime s j) (hn : ∀ n, i = .wakeTimeoutExpiry n →
    j ≠ .wakeTimeoutExpiry n ∧ j ≠ .pulseTimerExpiry n) : OnTime (s.takeDue i) j := by
  have k := takeDue_stops s i
  have step : ∀ {x y : Option Nat}, (y = x ∨ y = none) → (∀ d, x = some d → d ≤ s.now) →
      ∀ d, y = some d → d ≤ (s.takeDue i).now := by
    intro x y q hx d hd
    rw [k.now]
    rcases q with q | q
    · exact hx d (q ▸ hd)
    · rw [q] at hd; cases hd
  unfold OnTime at h ⊢
  split at h
  · trivial
  · trivial
  · next n => exact step (k.pulse n fun q => (hn n q).2 rfl) h
  · next n => exact step (k.timeout n fun q => (hn n q).1 rfl) h
  · exact step (k.probe _) h
  · exact step (k.defence _) h
  · exact h.elim

/-- Events that are all on time, the pulse expiries first and each once, are taken one after another as their commands take them. -/
theorem executes_onTime (es : List Instr) : ∀ s : State, s.resetAsserted = false → (∀ i ∈ es, OnTime s i) → es.Nodup →
    (es.Pairwise fun i j => ∀ n, j = .pulseTimerExpiry n → ∃ m, i = .pulseTimerExpiry m) →
    Executes es s (es.foldl State.takeDue s) := by
  induction es with
  | nil => intro s _ _ _ _; rfl
  | cons i es ih =>
    intro s hr h hd hp
    rw [List.nodup_cons] at hd
    rw [List.pairwise_cons] at hp
    refine ⟨s.takeDue i, exec_onTime hr (h i (.head _)), ih _ ((takeDue_stops s i).resetAsserted.trans hr) (fun j hj => ?_) hd.2 hp.2⟩
    refine (h j (.tail _ hj)).takeDue fun n q => ⟨fun w => hd.1 (by rw [q, ← w]; exact hj), fun w => ?_⟩
    obtain ⟨m, hm⟩ := hp.1 j hj n w
    rw [q] at hm
    cases hm

/-! ### The list of the events due -/

theorem placeByKey_perm {α : Type} (x : Nat × α) (l : List (Nat × α)) : (placeByKey x l).Perm (x :: l) := by
  induction l with
  | nil => exact .refl _
  | cons y l ih =>
    unfold placeByKey
    split
    · exact .refl _
    · exact (ih.cons y).trans (.swap x y l)

theorem foldl_placeByKey_perm {α : Type} (l k : List (Nat × α)) :
    (l.foldl (fun k x => placeByKey x k) k).Perm (l ++ k) := by
  induction l generalizing k with
  | nil => exact .refl _
  | cons x l ih => exact (ih _).trans (((placeByKey_perm x k).append_left l).trans List.perm_middle)

/-- The free order only permutes. -/
theorem arrange_perm {α : Type} (now first : Nat) (l : List α) : (arrange now first l).Perm l := by
  unfold arrange
  refine ((foldl_placeByKey_perm _ _).map Prod.snd).trans ?_
  rw [List.append_nil, List.map_map]
  have h : (Prod.snd ∘ fun p : α × Nat => (Config.expiryOrder now p.2, p.1)) = Prod.fst := rfl
  rw [h, List.zipIdx_map_fst]

theorem isDue_iff {now : Nat} {due : Option Nat} : isDue now due = true ↔ ∃ d, due = some d ∧ d ≤ now := by
  cases due <;> simp [isDue]

/-- The change that a filter takes in the next count (R28). -/
theorem change_sample (n : Fin 16) (x : Filter) (i : Instr) : Filter.change n (x.sample 1) = some i ↔
    x.pin ≠ x.taken ∧ 2 ≤ x.shown ∧ i = if x.pin then .awakeRises n else .awakeFalls n := by
  by_cases h : x.pin = x.taken
  · simp [Filter.change, Filter.complete, Filter.sample, Config.filterSamples, h]
  · by_cases k : 2 ≤ x.shown
    · simp only [Filter.change, Filter.complete, Filter.sample, Config.filterSamples, h, if_false, Nat.succ_le_succ k, decide_true,
        if_true, Option.some.injEq, ne_eq, not_false_eq_true, k, true_and]
      exact eq_comm
    · simp [Filter.change, Filter.complete, Filter.sample, Config.filterSamples, h, k]

/-- The events due in the next count, one by one. -/
theorem mem_dueEvents (s : State) (i : Instr) : i ∈ (s.passCounts 1).dueEvents ↔
    (∃ n, isDue (s.now + 1) (s.slot n).pulseDue = true ∧ .pulseTimerExpiry n = i)
    ∨ (∃ n, Filter.change n ((s.line n).sample 1) = some i)
    ∨ (∃ n, isDue (s.now + 1) (s.slot n).timeoutDue = true ∧ .wakeTimeoutExpiry n = i)
    ∨ (∃ e, isDue (s.now + 1) ((s.binding e).bind (·.probeDue)) = true ∧ .probeTimerExpiry e = i)
    ∨ (∃ e, isDue (s.now + 1) ((s.binding e).bind (·.defenceDue)) = true ∧ .defenceDeadlineReached e = i) := by
  simp only [State.dueEvents, List.mem_append, (arrange_perm _ _ _).mem_iff, List.mem_map, List.mem_filter, List.mem_filterMap,
    List.mem_finRange, true_and, line_passCounts, passCounts_slot, passCounts_binding, or_assoc]
  rfl

/-- Each event of a count stands once in its list. -/
theorem dueEvents_nodup (s : State) : (s.passCounts 1).dueEvents.Nodup := by
  have change : ∀ (n : Fin 16) i, Filter.change n ((s.passCounts 1).line n) = some i → i = .awakeRises n ∨ i = .awakeFalls n := by
    intro n i h
    rw [line_passCounts, change_sample] at h
    rw [h.2.2]
    split
    · exact .inl rfl
    · exact .inr rfl
  have once : ∀ {m : Nat} (f : Fin m → Instr) (p : Fin m → Bool), (∀ a b, f a = f b → a = b) →
      (((List.finRange m).filter p).map f).Nodup :=
    fun f p hf => ((List.nodup_finRange _).filter _).map hf
  rw [State.dueEvents, List.nodup_append]
  refine ⟨(arrange_perm _ _ _).nodup_iff.mpr (once _ _ fun _ _ h => Instr.pulseTimerExpiry.inj h), (arrange_perm _ _ _).nodup_iff.mpr ?_, ?_⟩
  · rw [List.nodup_append, List.nodup_append, List.nodup_append]
    refine ⟨⟨⟨(List.nodup_finRange _).filterMap fun a b i ha hb => ?_, once _ _ fun _ _ h => Instr.wakeTimeoutExpiry.inj h, ?_⟩,
      once _ _ fun _ _ h => Instr.probeTimerExpiry.inj h, ?_⟩, once _ _ fun _ _ h => Instr.defenceDeadlineReached.inj h, ?_⟩
    · rcases change a i ha with h | h <;> rcases change b i hb with k | k <;> rw [h] at k <;> cases k <;> rfl
    · intro i hi j hj
      obtain ⟨n, -, hn⟩ := List.mem_filterMap.mp hi
      obtain ⟨m, -, rfl⟩ := List.mem_map.mp hj
      rcases change n i hn with rfl | rfl <;> exact Instr.noConfusion
    · intro i hi j hj
      obtain ⟨m, -, rfl⟩ := List.mem_map.mp hj
      rcases List.mem_append.mp hi with hi | hi
      · obtain ⟨n, -, hn⟩ := List.mem_filterMap.mp hi
        rcases change n i hn with rfl | rfl <;> exact Instr.noConfusion
      · obtain ⟨n, -, rfl⟩ := List.mem_map.mp hi
        exact Instr.noConfusion
    · intro i hi j hj
      obtain ⟨m, -, rfl⟩ := List.mem_map.mp hj
      rcases List.mem_append.mp hi with hi | hi
      · rcases List.mem_append.mp hi with hi | hi
        · obtain ⟨n, -, hn⟩ := List.mem_filterMap.mp hi
          rcases change n i hn with rfl | rfl <;> exact Instr.noConfusion
        · obtain ⟨n, -, rfl⟩ := List.mem_map.mp hi
          exact Instr.noConfusion
      · obtain ⟨n, -, rfl⟩ := List.mem_map.mp hi
        exact Instr.noConfusion
  · intro i hi j hj
    rw [(arrange_perm _ _ _).mem_iff] at hi hj
    obtain ⟨m, -, rfl⟩ := List.mem_map.mp hi
    rcases List.mem_append.mp hj with hj | hj
    · rcases List.mem_append.mp hj with hj | hj
      · rcases List.mem_append.mp hj with hj | hj
        · obtain ⟨n, -, hn⟩ := List.mem_filterMap.mp hj
          rcases change n j hn with rfl | rfl <;> exact Instr.noConfusion
        · obtain ⟨n, -, rfl⟩ := List.mem_map.mp hj
          exact Instr.noConfusion
      · obtain ⟨n, -, rfl⟩ := List.mem_map.mp hj
        exact Instr.noConfusion
    · obtain ⟨n, -, rfl⟩ := List.mem_map.mp hj
      exact Instr.noConfusion

/-- The pulse expiries of a count stand first (R132; log 7). -/
theorem dueEvents_pulsesFirst (s : State) :
    (s.passCounts 1).dueEvents.Pairwise fun i j => ∀ n, j = .pulseTimerExpiry n → ∃ m, i = .pulseTimerExpiry m := by
  rw [State.dueEvents, List.pairwise_append]
  refine ⟨List.pairwise_of_forall_mem_list fun i hi _ _ _ _ => ?_, List.pairwise_of_forall_mem_list fun i _ j hj n h => ?_,
    fun i hi _ _ _ _ => ?_⟩
  · obtain ⟨m, -, rfl⟩ := List.mem_map.mp ((arrange_perm _ _ _).mem_iff.mp hi)
    exact ⟨m, rfl⟩
  · subst h
    rw [(arrange_perm _ _ _).mem_iff] at hj
    simp only [List.mem_append, List.mem_map, List.mem_filterMap, line_passCounts, reduceCtorEq, and_false, exists_false,
      or_false] at hj
    obtain ⟨m, -, hm⟩ := hj
    rw [change_sample] at hm
    split at hm <;> cases hm.2.2
  · obtain ⟨m, -, rfl⟩ := List.mem_map.mp ((arrange_perm _ _ _).mem_iff.mp hi)
    exact ⟨m, rfl⟩

/-- The events of the next count are those due in it, each once, the pulse expiries first (R28, R209; log 7). -/
theorem dueEvents_dueNext (s : State) : DueNext s (s.passCounts 1).dueEvents := by
  have line : ∀ (n : Fin 16) (v : Bool), ((s.line n).pin ≠ (s.line n).taken ∧ 2 ≤ (s.line n).shown ∧ (s.line n).pin = v) ↔
      ((s.line n).pin = v ∧ (s.line n).taken = !v ∧ 2 ≤ (s.line n).shown) := by
    intro n v
    cases (s.line n).pin <;> cases (s.line n).taken <;> cases v <;> simp
  refine ⟨dueEvents_nodup s, fun n => ?_, fun n => ?_, fun n => ?_, fun n => ?_, fun e => ?_, fun e => ?_, fun i hi => ?_,
    dueEvents_pulsesFirst s⟩
  · rw [mem_dueEvents, ← Bool.not_true, ← line n true]
    simp only [change_sample, reduceCtorEq, and_false, exists_false, false_or, or_false]
    constructor
    · rintro ⟨m, h, k, q⟩
      split at q
      · next hp => cases q; exact ⟨h, k, hp⟩
      · cases q
    · rintro ⟨h, k, q⟩
      exact ⟨n, h, k, by rw [q]; rfl⟩
  · rw [mem_dueEvents, ← Bool.not_false, ← line n false]
    simp only [change_sample, reduceCtorEq, and_false, exists_false, false_or, or_false]
    constructor
    · rintro ⟨m, h, k, q⟩
      split at q
      · cases q
      · next hp => cases q; exact ⟨h, k, eq_false_of_ne_true hp⟩
    · rintro ⟨h, k, q⟩
      exact ⟨n, h, k, by rw [q]; rfl⟩
  · have h : ∀ m, ¬ Filter.change m ((s.line m).sample 1) = some (.pulseTimerExpiry n) := fun m h => by
      rw [change_sample] at h; split at h <;> cases h.2.2
    simp [mem_dueEvents, h, isDue_iff]
  · have h : ∀ m, ¬ Filter.change m ((s.line m).sample 1) = some (.wakeTimeoutExpiry n) := fun m h => by
      rw [change_sample] at h; split at h <;> cases h.2.2
    simp [mem_dueEvents, h, isDue_iff]
  · have h : ∀ m, ¬ Filter.change m ((s.line m).sample 1) = some (.probeTimerExpiry e) := fun m h => by
      rw [change_sample] at h; split at h <;> cases h.2.2
    simp [mem_dueEvents, h, isDue_iff, Option.bind_eq_some_iff]
    exact ⟨fun ⟨d, ⟨b, hb, hd⟩, k⟩ => ⟨b, hb, d, hd, k⟩, fun ⟨b, hb, d, hd, k⟩ => ⟨d, ⟨b, hb, hd⟩, k⟩⟩
  · have h : ∀ m, ¬ Filter.change m ((s.line m).sample 1) = some (.defenceDeadlineReached e) := fun m h => by
      rw [change_sample] at h; split at h <;> cases h.2.2
    simp [mem_dueEvents, h, isDue_iff, Option.bind_eq_some_iff]
    exact ⟨fun ⟨d, ⟨b, hb, hd⟩, k⟩ => ⟨b, hb, d, hd, k⟩, fun ⟨b, hb, d, hd, k⟩ => ⟨d, ⟨b, hb, hd⟩, k⟩⟩
  · rcases (mem_dueEvents s i).mp hi with ⟨n, -, rfl⟩ | ⟨n, h⟩ | ⟨n, -, rfl⟩ | ⟨e, -, rfl⟩ | ⟨e, -, rfl⟩
    · exact .inl ⟨n, .inr (.inr (.inl rfl))⟩
    · rw [change_sample] at h
      rw [h.2.2]
      split
      · exact .inl ⟨n, .inl rfl⟩
      · exact .inl ⟨n, .inr (.inl rfl)⟩
    · exact .inl ⟨n, .inr (.inr (.inr rfl))⟩
    · exact .inr ⟨e, .inl rfl⟩
    · exact .inr ⟨e, .inr rfl⟩

/-! ### A count, and time up to a later one -/

theorem foldl_takeDue_now (es : List Instr) (s : State) : (es.foldl State.takeDue s).now = s.now := by
  induction es generalizing s with
  | nil => rfl
  | cons i es ih => exact (ih _).trans (takeDue_stops s i).now

theorem oneCount_now (s : State) : s.oneCount.now = s.now + 1 := foldl_takeDue_now _ _

/-- The next count, as the commands of its events. -/
theorem oneCount_executes (s : State) (hr : s.resetAsserted = false) :
    Executes (s.passCounts 1).dueEvents (s.passCounts 1) s.oneCount := by
  obtain ⟨nodup, -, -, pulse, timeout, probe, defence, only, first⟩ := dueEvents_dueNext s
  refine executes_onTime _ _ hr (fun i hi => ?_) nodup first
  rcases only i hi with ⟨n, rfl | rfl | rfl | rfl⟩ | ⟨e, rfl | rfl⟩
  · trivial
  · trivial
  · intro d hd
    obtain ⟨c, hc, k⟩ := (pulse n).mp hi
    cases hc.symm.trans hd
    exact k
  · intro d hd
    obtain ⟨c, hc, k⟩ := (timeout n).mp hi
    cases hc.symm.trans hd
    exact k
  · intro d hd
    obtain ⟨b, c, hb, hc, k⟩ := (probe e).mp hi
    rw [State.probeDue, passCounts_binding, hb] at hd
    cases hc.symm.trans hd
    exact k
  · intro d hd
    obtain ⟨b, c, hb, hc, k⟩ := (defence e).mp hi
    rw [State.defenceDue, passCounts_binding, hb] at hd
    cases hc.symm.trans hd
    exact k

/-- A later count that has come passes no time. -/
theorem advance_of_le {s : State} {d : Nat} (h : d ≤ s.now) : s.advance d = s := by
  unfold State.advance
  rw [Nat.sub_eq_zero_of_le h]
  rfl

/-- `skipQuiet` stays before the count it leads to. -/
theorem skipQuiet_now (s : State) {d : Nat} (h : s.now < d) : s.now ≤ (s.skipQuiet d).now ∧ (s.skipQuiet d).now < d := by
  have le : ∀ (l : List Nat) (k : Nat), l.foldl (fun k due => min k (due - s.now - 1)) k ≤ k := by
    intro l
    induction l with
    | nil => exact fun _ => le_rfl
    | cons c l ih => exact fun k => (ih _).trans (min_le_left _ _)
  have hq : s.quietCounts d ≤ d - s.now - 1 := le _ _
  unfold State.skipQuiet
  split
  · exact ⟨le_rfl, h⟩
  · constructor
    · exact Nat.le_add_right _ _
    · show s.now + s.quietCounts d < d
      omega

/-- More room than the counts to pass changes nothing. -/
theorem advanceWithin_enough (k : Nat) : ∀ (s : State) (d : Nat), d - s.now ≤ k → advanceWithin k d s = s.advance d := by
  induction k using Nat.strong_induction_on with
  | _ k ih =>
    intro s d hk
    by_cases hd : d ≤ s.now
    · rw [advance_of_le hd]
      cases k with
      | zero => rfl
      | succ k => exact if_pos hd
    · obtain ⟨j, hj⟩ : ∃ j, d - s.now = j + 1 := ⟨d - s.now - 1, by omega⟩
      obtain ⟨m, rfl⟩ : ∃ m, k = m + 1 := ⟨k - 1, by omega⟩
      have hn := skipQuiet_now s (Nat.lt_of_not_le hd)
      have hc := oneCount_now (s.skipQuiet d)
      have left : advanceWithin (m + 1) d s = advanceWithin m d (s.skipQuiet d).oneCount := if_neg hd
      have right : s.advance d = advanceWithin j d (s.skipQuiet d).oneCount := by
        unfold State.advance
        rw [hj]
        exact if_neg hd
      rw [left, right, ih m (by omega) _ _ (by omega), ih j (by omega) _ _ (by omega)]

/-- Time up to a later count: the counts that bring nothing, the next one, and the rest. -/
theorem advance_skip {s : State} {d : Nat} (h : s.now < d) : s.advance d = (s.skipQuiet d).oneCount.advance d := by
  have hn := skipQuiet_now s h
  have hc := oneCount_now (s.skipQuiet d)
  obtain ⟨j, hj⟩ : ∃ j, d - s.now = j + 1 := ⟨d - s.now - 1, by omega⟩
  have step : s.advance d = advanceWithin j d (s.skipQuiet d).oneCount := by
    unfold State.advance
    rw [hj]
    exact if_neg (Nat.not_le.mpr h)
  rw [step, advanceWithin_enough j _ _ (by omega)]

/-- The quiet counts lie before every count in which something falls due. -/
theorem quietCounts_le {s : State} {d due : Nat} (h : due ∈ s.dueCounts) : s.quietCounts d ≤ due - s.now - 1 := by
  have le : ∀ (l : List Nat) (k : Nat), l.foldl (fun k due => min k (due - s.now - 1)) k ≤ k
      ∧ ∀ c ∈ l, l.foldl (fun k due => min k (due - s.now - 1)) k ≤ c - s.now - 1 := by
    intro l
    induction l with
    | nil => exact fun _ => ⟨le_rfl, fun _ h => (List.not_mem_nil h).elim⟩
    | cons c l ih =>
      intro k
      refine ⟨(ih _).1.trans (min_le_left _ _), fun e he => ?_⟩
      rcases List.mem_cons.mp he with rfl | he
      · exact (ih _).1.trans (min_le_right _ _)
      · exact (ih _).2 e he
  exact (le _ _).2 due h

theorem mem_dueCounts {s : State} {c : Nat} : c ∈ s.dueCounts ↔
    (∃ n, (s.line n).pin ≠ (s.line n).taken ∧ s.now + (Config.filterSamples - (s.line n).shown) = c)
    ∨ (∃ n, (s.slot n).pulseDue = some c) ∨ (∃ n, (s.slot n).timeoutDue = some c)
    ∨ (∃ e, s.probeDue e = some c) ∨ ∃ e, s.defenceDue e = some c := by
  simp only [State.dueCounts, List.mem_append, List.mem_filterMap, List.mem_finRange, true_and, or_assoc, State.probeDue,
    State.defenceDue]
  refine or_congr (exists_congr fun n => ?_) Iff.rfl
  split <;> simp_all

/-- A quiet count brings no event. -/
theorem dueEvents_quiet {s : State} {d : Nat} (h : s.quietCounts d ≠ 0) : (s.passCounts 1).dueEvents = [] := by
  have late : ∀ c, c ∈ s.dueCounts → s.now + 1 < c := fun c hc => by
    have := quietCounts_le (d := d) hc
    omega
  refine List.eq_nil_iff_forall_not_mem.mpr fun i hi => ?_
  rcases (mem_dueEvents s i).mp hi with ⟨n, hd, -⟩ | ⟨n, hd⟩ | ⟨n, hd, -⟩ | ⟨e, hd, -⟩ | ⟨e, hd, -⟩
  · obtain ⟨c, hc, k⟩ := isDue_iff.mp hd
    exact absurd (late c (mem_dueCounts.mpr (.inr (.inl ⟨n, hc⟩)))) (by omega)
  · rw [change_sample] at hd
    have := late _ (mem_dueCounts.mpr (.inl ⟨n, hd.1, rfl⟩))
    have k := hd.2.1
    simp only [Config.filterSamples] at this
    omega
  · obtain ⟨c, hc, k⟩ := isDue_iff.mp hd
    exact absurd (late c (mem_dueCounts.mpr (.inr (.inr (.inl ⟨n, hc⟩))))) (by omega)
  · obtain ⟨c, hc, k⟩ := isDue_iff.mp hd
    exact absurd (late c (mem_dueCounts.mpr (.inr (.inr (.inr (.inl ⟨e, hc⟩)))))) (by omega)
  · obtain ⟨c, hc, k⟩ := isDue_iff.mp hd
    exact absurd (late c (mem_dueCounts.mpr (.inr (.inr (.inr (.inr ⟨e, hc⟩)))))) (by omega)

/-- After a quiet count one fewer is left. -/
theorem quietCounts_passCounts {s : State} {d : Nat} (h : s.quietCounts d ≠ 0) :
    (s.passCounts 1).quietCounts d = s.quietCounts d - 1 := by
  have counts : (s.passCounts 1).dueCounts = s.dueCounts := by
    have line : ∀ n, (if ((s.passCounts 1).line n).pin = ((s.passCounts 1).line n).taken then none
          else some ((s.passCounts 1).now + (Config.filterSamples - ((s.passCounts 1).line n).shown)))
        = if (s.line n).pin = (s.line n).taken then none else some (s.now + (Config.filterSamples - (s.line n).shown)) := by
      intro n
      rw [line_passCounts]
      by_cases q : (s.line n).pin = (s.line n).taken
      · simp only [Filter.sample, q, if_true]
      · have := quietCounts_le (d := d) (mem_dueCounts.mpr (.inl ⟨n, q, rfl⟩))
        simp only [Config.filterSamples] at this
        simp only [Filter.sample, q, if_false, State.passCounts, Config.filterSamples, Option.some.injEq]
        omega
    unfold State.dueCounts
    rw [List.filterMap_congr fun n _ => line n]
    rfl
  have shift : ∀ (l : List Nat) (k : Nat), l.foldl (fun k due => min k (due - (s.now + 1) - 1)) (k - 1)
      = l.foldl (fun k due => min k (due - s.now - 1)) k - 1 := by
    intro l
    induction l with
    | nil => exact fun _ => rfl
    | cons c l ih =>
      intro k
      rw [List.foldl_cons, List.foldl_cons, ← ih]
      congr 1
      omega
  unfold State.quietCounts
  have left : d - (s.passCounts 1).now - 1 = d - s.now - 1 - 1 := by
    show d - (s.now + 1) - 1 = _
    omega
  rw [counts, left, ← shift]
  rfl

/-- Counts passed one after another. -/
theorem passCounts_passCounts (s : State) (j k : Nat) : (s.passCounts j).passCounts k = s.passCounts (j + k) := by
  unfold State.passCounts
  simp only [Nat.add_assoc]
  congr 2
  funext n
  have : ∀ x : Filter, (x.sample j).sample k = x.sample (j + k) := by
    intro x
    unfold Filter.sample
    by_cases q : x.pin = x.taken
    · simp [q]
    · simp [q, Nat.add_assoc]
  exact (congrArg (Filter.sample k) (line_passCounts s j n)).trans (this _)

/-- Time up to a later count is one count after another: what `advance` passes at once brings nothing (R209). -/
theorem advance_oneCount {s : State} {d : Nat} (h : s.now < d) : s.advance d = s.oneCount.advance d := by
  by_cases hq : s.quietCounts d = 0
  · rw [advance_skip h, State.skipQuiet, if_pos hq]
  · have hone : s.oneCount = s.passCounts 1 := by
      unfold State.oneCount
      rw [dueEvents_quiet hq]
      rfl
    have hlt : s.now + 1 < d := by
      have := skipQuiet_now s h
      rw [State.skipQuiet, if_neg hq] at this
      have : s.now + s.quietCounts d < d := this.2
      omega
    have hskip : (s.passCounts 1).skipQuiet d = s.skipQuiet d := by
      rw [State.skipQuiet, State.skipQuiet, if_neg hq, quietCounts_passCounts hq]
      split
      · next h0 => rw [show s.quietCounts d = 1 by omega]
      · rw [passCounts_passCounts, show 1 + (s.quietCounts d - 1) = s.quietCounts d by omega]
    rw [advance_skip h, hone, advance_skip (s := s.passCounts 1) hlt, hskip]

/-- An expiry commanded before its count passes time up to it (log 5). -/
theorem expiry_of_early {timer : State → Option Nat} {s : State} {d : Nat} (act : State → State) (h : timer s = some d)
    (hd : s.now < d) : expiry timer act s = s.advance d := by
  simp only [expiry, h, Nat.not_le.mpr hd, if_false]

end Sys2Proof.Machine
end

