-- ==== Sys2Proof/Laws/Vacating.lean ====
section
/-! SUPPORT. Laws/Vacating.lean: what becoming VACANT does to records that fulfil their laws, said once in the shape of Safety.lean
(`Vacated`). -/

namespace Sys2Proof.Machine

/-- An entry of one list stands in no other (R5, R12). -/
theorem RecordsLaw.owner_unique {s : State} (h : RecordsLaw s) {n m : Fin 16} {e : Fin 96} (hn : e ∈ (s.slot n).addresses)
    (hm : e ∈ (s.slot m).addresses) : n = m := by
  obtain ⟨b, hb, rfl⟩ := (h.1 n e).mp hn
  obtain ⟨c, hc, rfl⟩ := (h.1 m e).mp hm
  rw [hb] at hc
  cases hc
  rfl

/-- An entry of a list is allocated (R5, R12). -/
theorem RecordsLaw.allocated {s : State} (h : RecordsLaw s) {n : Fin 16} {e : Fin 96} (hn : e ∈ (s.slot n).addresses) :
    ∃ b, s.binding e = some b ∧ b.owner = n := (h.1 n e).mp hn

theorem emptyWay_eq_some {es : List (Fin 96)} {w : Option (Fin 96)} {e : Fin 96} :
    emptyWay es w = some e ↔ w = some e ∧ e ∉ es := by
  simp only [emptyWay, Option.filter_eq_some_iff, Bool.not_eq_true', decide_eq_false_iff_not]

/-- The slot's part of becoming VACANT, and nothing of the other slots (R16, R54). -/
theorem becomeVacant_vacated {s : State} (h : RecordsLaw s) (n : Fin 16) :
    Vacated s (s.becomeVacant n) n ∧ ∀ e, e ∉ (s.slot n).addresses → (s.becomeVacant n).entry e = s.entry e := by
  have kept : ∀ e, e ∉ (s.slot n).addresses → (s.becomeVacant n).entry e = s.entry e := fun e he => by
    rw [entry_becomeVacant, if_neg he]
  refine ⟨⟨by simp, fun m hm => ?_, fun e he => ?_, fun e he => .inl (kept e he), fun k w e => ?_, pattern_becomeVacant s n⟩, kept⟩
  · rw [slot_becomeVacant, if_neg (Ne.symm hm), List.filter_eq_self.mpr]
    intro e he
    simpa using fun hn => hm (h.owner_unique he hn)
  · obtain ⟨b, hb, -⟩ := h.allocated he
    rw [entry_becomeVacant, if_pos he, Entry.free, if_pos (by rw [← State.binding_eq, hb]; rfl)]
  · rw [State.wayHolds, way_becomeVacant, emptyWay_eq_some]

end Sys2Proof.Machine
end

