-- ==== Sys2Proof/Tests/Slice0.lean ====
section
/-! SUPPORT. Tests/Slice0.lean: checks of the model on small states. First the ill-formed commands and the manual's worked values, then
one or two short checks for each command, then, for each obligation with hypotheses, a state and operands that meet them. -/

set_option maxRecDepth 4000

namespace Sys2Proof.Tests
open Sys2Proof Sys2Proof.Machine

/-! ### Small states -/

/-- The addresses of the manual's examples: the station, the OWN client of slot 3, the MIRRORED client of slot 6, and another station. -/
def station : LinkAddr := 0x02104F000001#48
def client : LinkAddr := 0x001B213A77C0#48
def client6 : LinkAddr := 0x001B213A7810#48
def other : LinkAddr := 0x0050C2112001#48

/-- 10.4.7.21, of bucket 28. -/
def key : Addr := .v4 0x0A040715#32

def bare : State := { State.reset with settings := { station := station } }

/-- Slot 3 with the record `x` and its client address; entry 5 in its list for 10.4.7.21, its binding changed by `b`. -/
def scene (x : Slot) (b : Binding → Binding) : State :=
  ((bare.setSlot 3 { x with client := some client }).insert 3 key 5 0).modBinding 5 b

def own (st : SlotState) : Slot := { state := st, mode := some .own }
def mirrored (st : SlotState) : Slot := { state := st, mode := some .mirrored }

def held (b : Binding) : Binding := { b with claim := .held }
def defended (b : Binding) : Binding := { b with claim := .defended, defenceDue := some 10000, duty := some .defend }
def lost (b : Binding) : Binding := { b with claim := .lost }
def tentative (b : Binding) : Binding := { b with claim := .tentative, duty := some .probe }
/-- The probe timer runs, with `k` probes sent. -/
def waitingProbe (k : Nat) (b : Binding) : Binding := { b with claim := .tentative, probesSent := k, probeDue := some 1000 }

def staged : State := scene (own .staged) id
def armed : State := scene (own .armed) id
def probing : State := scene (own .probing) tentative
def proxying : State := scene (own .proxying) held
def wakingSlot : Slot := { own .waking with
  attempts := 1, wakeLine := true, pulseDue := some 50, timeoutDue := some 5000 }
def waking : State := scene wakingSlot held
def completed (s : State) : State := { s with mailbox := { s.mailbox with state := .complete } }

/-- The announced release of slot 3, its one handback waiting. -/
def releasing : State :=
  let s := scene { own .releasing with outstanding := 1 } fun b => { b with duty := some .handback }
  { s with mailbox := { s.mailbox with state := .executing { slot := 3, set := [5] } } }

/-- A frame of entry 5 in transmission, the link up. -/
def sending (k : ItemKind) (s : State) : State := { s with link := true, tx := some { kind := k, entry := 5, gen := 0, frame := [] } }

/-- Pattern 2: the first frame byte, compared with 00h. -/
def firstByte : PatternDef := { offset := 0, length := 1, mask := 1, value := Vector.replicate 32 0 }
/-- Pattern 2 is in the list of slot 3. -/
def listed (s : State) : State :=
  (s.setPattern 2 { refs := 1, definition := some firstByte }).modSlot 3 fun x => { x with patterns := [2] }
def defined2 (s : State) : State := s.setPattern 2 { refs := 0, definition := some firstByte }

/-- The next state answered fulfils `p`. -/
def yields (o : Host.Outcome State Fault Refusal) (p : State → Bool) : Bool :=
  match o with
  | .next t => p t
  | .fault _ => false
  | .refused _ => false

/-- The result code and the response data of a command that completed. -/
def answers (o : Host.Outcome State Fault Refusal) (r : Result) (data : List Byte) : Bool :=
  yields o fun t => t.mailbox.state == .complete && t.mailbox.result == r.code
    && (t.mailbox.response.toList.drop 2).take (data.length + 1) == countByte data.length :: data

/-- A frame with its four check-sequence bytes. -/
def onWire (f : List Byte) : List Byte := f ++ List.replicate 4 0
/-- A V4 REQUEST of another station for 10.4.7.21, from protocol address `sender`. -/
def request (sender : BitVec 32) : List Byte := v4Frame broadcast other 1 other sender 0 0x0A040715#32
/-- A V4 REPLY of another station that uses 10.4.7.21. -/
def reply : List Byte := v4Frame broadcast other 2 other 0x0A040715#32 0 0x0A040709#32
/-- An IPv4 frame to the client of a MIRRORED slot 3. -/
def unicast : List Byte := linkBytes client ++ linkBytes other ++ toBytesBE 2 typeIPv4 ++ List.replicate 46 0
/-- An IPv4 frame to the station address with protocol address 10.4.7.21. -/
def toStation : List Byte := linkBytes station ++ linkBytes other ++ toBytesBE 2 typeIPv4 ++ List.replicate 16 0
  ++ toBytesBE 4 0x0A040715 ++ List.replicate 26 0
/-- A frame to nobody known. -/
def stray : List Byte := linkBytes client6 ++ linkBytes other ++ toBytesBE 2 typeIPv4 ++ List.replicate 46 0
/-- A V6 neighbour message with a wrong checksum, to all nodes. -/
def badChecksum : List Byte :=
  linkBytes allNodesLink ++ linkBytes other ++ toBytesBE 2 typeIPv6 ++ [0x60#8, 0#8, 0#8, 0#8, 0#8, 24#8, 58#8, 255#8]
    ++ List.replicate 32 0 ++ icmpMessage icmpAdvert 0 0x20010DB8000000000000000000000021#128 none

/-! ### Ill-formed commands -/

theorem test_illFormed_commandAreaWrite : (Instr.commandAreaWrite 0x50 0).wellFormed = false := by decide
theorem test_illFormed_windowWriteIgnored : (Instr.windowWriteIgnored 0x04 0).wellFormed = false := by decide
theorem test_illFormed_invalidControlWrite : (Instr.invalidControlWrite 0x02).wellFormed = false := by decide
theorem test_illFormed_unknownCommand : (Instr.unknownCommand 0x1D).wellFormed = false := by decide

/-! ### The manual's worked values -/

/-- 10.4.7.21 selects bucket 28, as 10.4.6.20 does, and 2001:0DB8::21 selects bucket 21 (01, example). -/
theorem test_buckets : bucketOf key = 28 ∧ bucketOf (.v4 0x0A040614#32) = 28
    ∧ bucketOf (.v6 0x20010DB8000000000000000000000021#128) = 21 := by decide

/-- The ADD_ADDRESS of 10.2: the bytes 12h, 03h, 01h, 0Ah, 04h, 07h, 15h from 10h on. -/
theorem test_window_example :
    decodeCommand ([0x12, 0x03, 0x01, 0x0A, 0x04, 0x07, 0x15] ++ List.replicate 57 0)
      = .addAddress 3 1 0x0A040715000000000000000000000000#128 := by decide

/-- SET_TIMING with interval 0064h, low byte first; OPEN_SLOT with its client address, first byte first (R196, R201). -/
theorem test_decode_byte_order :
    decodeCommand [0x03, 0x07, 0x64, 0x00, 0x3C] = .setTiming 7 100 60
      ∧ decodeCommand [0x10, 0x03, 0x00, 0x1B, 0x21, 0x3A, 0x77, 0xC0, 0x01] = .openSlot 3 client 1 := by decide

/-- Condition 7 of R85: the solicited-node group of 2001:0DB8::21 is FF02::1:FF00:21, at 33:33:FF:00:00:21 (04, example). -/
theorem test_solicited_node :
    solicitedLink 0x20010DB8000000000000000000000021#128 = 0x3333FF000021#48
      ∧ solicitedGroup 0x20010DB8000000000000000000000021#128 = 0xFF0200000000000000000001FF000021#128 := by decide

/-- The status bytes after that ADD_ADDRESS: 5Ch, 02h, COMPLETE, OK, 00h, link up, and empty sets (10.4, example). -/
theorem test_status_bytes : (completed { staged with link := true }).statusBytes = [0x5C, 0x02, 0x02, 0, 0, 0x01, 0, 0, 0] := by
  decide

/-- Slots 3 and 9 with a pending kind read as 08h and 02h at 06h and 07h (10.4, example). -/
theorem test_slot_summary :
    ((bare.setSlot 3 { attention := 1 }).setSlot 9 { attention := 1 }).windowRead 0x06 = 0x08
      ∧ ((bare.setSlot 3 { attention := 1 }).setSlot 9 { attention := 1 }).windowRead 0x07 = 0x02 := by decide

/-- A byte read on the port: CS_N falls, then 80h and 00h, and the device code is carried (R153, R156). -/
theorem test_port_read :
    yields (bare.csFalls.portByte 0x80) (fun t => yields (t.portByte 0x00) fun u => u.port.out == 0x5C) = true := by decide

/-- A written byte reaches the control byte, and the byte after it the next offset (R154, R155). -/
theorem test_port_write :
    yields ((completed bare).csFalls.portByte 0x00) (fun t => yields (t.portByte 0x04) fun u =>
      yields (u.portByte 0x02) fun v => v.mailbox.state == .idle && v.port.phase == .writing 5) = true := by decide

/-- The third sample in a row of a low AWAKE_3 makes the change due (R28). -/
theorem test_filter :
    yields (step { armed with lines := armed.lines.set 3 { pin := false, taken := true, shown := 2 } })
        (fun t => t.now == 1 && t.pending == [.awakeFalls 3]) = true := by decide

/-- A move of the pin after the third sample and before the queued change is not lost: the next sample shows it (R28). -/
theorem test_filter_move_back :
    yields (exec (.awakeFalls 3) (armed.setLine 3 { pin := true, taken := true, shown := 3 })) (fun t =>
      t.line 3 == { pin := true, taken := false, shown := 0 }
        && yields (step t) fun u => u.line 3 == { pin := true, taken := false, shown := 1 }) = true := by decide

/-! ### Each command, in the order of the table -/

theorem test_powerOn : yields (exec (.powerOn 0x0008 true true) (completed proxying)) (fun t =>
    (t.line 3).taken && !(t.line 2).taken && t.link && t.port.phase == .ignoring && t.mailbox.state == .idle
      && (t.slot 3).state == .vacant && t.settings.station == 0) = true := by decide

theorem test_awakeRises : yields (exec (.awakeRises 3) proxying) (fun t =>
    (t.slot 3).state == .staged && (t.slot 3).attention == 0x40 && t.claim 5 == some .quiet && t.duty 5 == some .handback
      && (t.line 3).taken) = true := by decide

theorem test_awakeFalls : yields (exec (.awakeFalls 3) { armed with link := true }) (fun t =>
    (t.slot 3).state == .probing && t.claim 5 == some .tentative && t.duty 5 == none && t.queue == []
      && t.tx.map (·.frame) == some (probeFrame client key)) = true := by decide

theorem test_linkLoss : yields (exec .linkLoss (sending (.duty .probe) probing)) (fun t =>
    !t.link && t.tx == none && t.counters.itemsDiscarded == 1 && t.deviceAttention == 1 && t.duty 5 == some .probe) = true := by
  decide

theorem test_linkLoss_release : yields (exec .linkLoss (sending .answerV4 releasing)) (fun t =>
    t.mailbox.state == .complete && t.mailbox.result == 0x0D && (t.slot 3).state == .vacant && (t.entry 5).gen == 1) = true := by
  decide

theorem test_linkUp : yields (exec .linkUp probing) (fun t =>
    t.link && t.deviceAttention == 2 && t.duty 5 == none && t.tx.map (·.entry) == some 5) = true := by decide

/-- The request is answered from OWN mode with the station address (R91, R106, R107). -/
theorem test_frameTaken_answer : yields (exec (.frameTaken (onWire (request 0x0A040709)) true) { proxying with link := true })
    (fun t => t.counters.framesTaken == 1
      && t.tx.map (·.frame) == some (v4Frame other station 2 station 0x0A040715 other 0x0A040709)) = true := by decide

theorem test_frameTaken_wake : yields (exec (.frameTaken (onWire unicast) true) (listed (scene (mirrored .proxying) held)))
    (fun t => (t.slot 3).state == .waking && (t.slot 3).cause == some (.pattern 2) && (t.slot 3).counters.wakeMatches == 1
      && (t.slot 3).pulseDue == some 50 && (t.slot 3).timeoutDue == some 5000 && (t.slot 3).attention == 0x10) = true := by
  decide

theorem test_probeTimerExpiry : yields (exec (.probeTimerExpiry 5) (scene (own .probing) (waitingProbe 3))) (fun t =>
    t.claim 5 == some .held && t.duty 5 == some .announce && (t.slot 3).state == .proxying && (t.slot 3).attention == 1
      && t.now == 1000) = true := by decide

/-- A matching frame wakes the client; in the announced release it is counted and wakes nobody (R81, R87, R139; log 19). -/
theorem test_frameTaken_released :
    let station2 := fun s => (listed s).setPattern 2 { refs := 1, definition := some { firstByte with value := Vector.replicate 32 2 } }
    yields (exec (.frameTaken (onWire toStation) true) (station2 proxying)) (fun t => (t.slot 3).state == .waking) = true
    ∧ yields (exec (.frameTaken (onWire toStation) true) (station2 releasing)) (fun t =>
      t.slot 3 == (station2 releasing).slot 3 && t.counters.framesTaken == 1) = true := by decide

/-- An expiry commanded before its count comes there: the client wakes in the third of the counts up to it, and the timer is stopped, so time
passes to the count and the expiry does not come (R28, R44, R130). -/
theorem test_probeTimerExpiry_early :
    yields (exec (.probeTimerExpiry 5) ((scene (own .probing) (waitingProbe 3)).setLine 3 { pin := true, taken := false }))
      (fun t => (t.slot 3).state == .staged && t.claim 5 == some .quiet && t.now == 1000 && (t.line 3).taken) = true := by decide

theorem test_defenceDeadlineReached : yields (exec (.defenceDeadlineReached 5) (scene (own .proxying) defended)) (fun t =>
    t.binding 5 == some { owner := 3, addr := key, claim := .held }) = true := by decide

theorem test_pulseTimerExpiry : yields (exec (.pulseTimerExpiry 3) waking) (fun t =>
    !(t.slot 3).wakeLine && (t.slot 3).pulseDue == none && (t.slot 3).timeoutDue == some 5000 && t.now == 50) = true := by decide

/-- Commanded early, it comes in its count, after the end of the pulse and of a defence on the way (R68, R132, R209). -/
theorem test_wakeTimeoutExpiry : yields (exec (.wakeTimeoutExpiry 3)
      ((scene wakingSlot defended).modBinding 5 fun b => { b with defenceDue := some 4000 })) (fun t =>
    (t.slot 3).attempts == 2 && (t.slot 3).attention == 0 && (t.slot 3).pulseDue == some 5050
      && (t.slot 3).timeoutDue == some 10000 && t.claim 5 == some .held && t.now == 5000) = true := by decide

/-- Given again after its count has begun a further attempt, it is the expiry of the new timer (log 5). -/
theorem test_wakeTimeoutExpiry_again : yields (exec (.wakeTimeoutExpiry 3) { scene { wakingSlot with
    attempts := 2, pulseDue := some 5050, timeoutDue := some 10000 } held with now := 5000 }) (fun t =>
    (t.slot 3).attempts == 3 && (t.slot 3).timeoutDue == some 15000 && t.now == 10000) = true := by decide

/-- A pulse and a timeout of one count: WAKE_n is deasserted first (R132; log 7). -/
theorem test_pulse_before_timeout : yields (step { scene { wakingSlot with timeoutDue := some 50 } held with now := 49 }) (fun t =>
    t.pending == [.pulseTimerExpiry 3, .wakeTimeoutExpiry 3]) = true := by decide

theorem test_wakeTimeoutExpiry_dark : yields (exec (.wakeTimeoutExpiry 3) (scene { wakingSlot with attempts := 3 } defended))
    (fun t => (t.slot 3).state == .dark && (t.slot 3).attention == 0x20 && t.claim 5 == some .held && t.duty 5 == none) = true := by
  decide

theorem test_transmissionComplete : yields (exec .transmissionComplete (sending (.duty .probe) probing)) (fun t =>
    t.counters.dutiesTransmitted == 1 && t.tx == none
      && t.binding 5 == some { owner := 3, addr := key, claim := .tentative, probesSent := 1, probeDue := some 1000 }) = true := by
  decide

/-- The completed probe's entry owes another PROBE: the duty is cleared before the next item leaves the queue its place (R111). -/
theorem test_transmissionComplete_order : yields (exec .transmissionComplete { sending (.duty .probe) probing with
    queue := [.duty .probe 5 0] }) (fun t =>
    t.queue == [] && t.duty 5 == none && t.tx.map (·.kind) == some (.duty .probe)) = true := by decide

theorem test_itemTake : yields (exec .itemTake { proxying with
    link := true, queue := [.duty .probe 5 0, .duty .announce 5 0] }) (fun t =>
    t.counters.itemsDiscarded == 1 && t.queue == [] && t.tx.map (·.frame) == some (announcementFrame station key)) = true := by
  decide

theorem test_pendingDutyTaken : yields (exec .pendingDutyTaken (sending .answerV4 probing)) (fun t =>
    t.queue == [.duty .probe 5 0] && t.duty 5 == none) = true := by decide

theorem test_commandAreaWrite : yields (exec (.commandAreaWrite 0x4F 0xAB) bare) (fun t => t.windowRead 0x4F == 0xAB) = true := by
  decide

theorem test_windowWriteIgnored : yields (exec (.windowWriteIgnored 0x03 0xAB) bare) (fun t => t == bare) = true := by decide

theorem test_ack : yields (exec .ack (completed bare)) (fun t => t == bare) = true := by decide

theorem test_abort : yields (exec .abort releasing) (fun t =>
    t.mailbox.result == 0x0E && (t.slot 3).state == .vacant && t.windowRead 0x56 == 1 && (t.entry 5).gen == 1) = true := by decide

theorem test_invalidControlWrite : yields (exec (.invalidControlWrite 0x03) bare) (fun t => t.deviceAttention == 4) = true := by
  decide

theorem test_unknownCommand : answers (exec (.unknownCommand 0x7F) bare) .unknownCommand [] = true := by decide

theorem test_setStation : yields (exec (.setStation other) staged) (fun t => t.settings.station == other) = true := by decide

theorem test_setSegment : yields (exec (.setSegment 4094) staged) (fun t => t.settings.segment == 4094) = true := by decide

theorem test_setTiming : yields (exec (.setTiming 1 100 60) (scene (own .staged) fun b => { lost b with probesSent := 3 })) (fun t =>
    t.settings.probeCount == 1 && (t.binding 5).map (·.probesSent) == some 1) = true := by decide

theorem test_setAttentionMask : yields (exec (.setAttentionMask 0x7F 0x0F 0x01) bare) (fun t => attnAsserted t) = true := by decide

theorem test_readDevice : yields (exec (.readDevice 0x01) { bare with counters := { framesTaken := 0x0102 } }) (fun t =>
    t.windowRead 0x52 == 0x30 && t.windowRead 0x67 == 2 && t.windowRead 0x68 == 1 && t.counters.framesTaken == 0
      && t.windowRead 0x63 == 96 && t.windowRead 0x64 == 32) = true := by decide

theorem test_deviceReset : yields (exec .deviceReset (sending (.duty .announce) proxying)) (fun t =>
    (t.slot 3).state == .vacant && (t.entry 5).gen == 1 && t.tx == none && t.lookup key == none
      && t.lastEnded.map (·.checkGood) == some false && t.settings.station == station) = true := by decide

theorem test_openSlot : yields (exec (.openSlot 6 client6 2) staged) (fun t =>
    (t.slot 6).state == .staged && (t.slot 6).client == some client6 && (t.slot 6).mode == some .mirrored) = true := by decide

theorem test_setSlotPolicy : yields (exec (.setSlotPolicy 3 2 1 99 100 7) staged) (fun t =>
    (t.slot 3).loss == .wake && (t.slot 3).autoRearm && (t.slot 3).pulseWidth == 99 && (t.slot 3).wakeTimeout == 100
      && (t.slot 3).wakeRetries == 7) = true := by decide

/-- 10.4.7.85 joins 10.4.7.21 in bucket 28, with the lowest FREE entry (01, example). -/
theorem test_addAddress : answers (exec (.addAddress 3 1 (0x0A040755#128 <<< 96)) staged) .ok [0, 0] = true := by decide

theorem test_removeAddress : answers (exec (.removeAddress 5) staged) .ok [5, 1] = true := by decide

theorem test_attachPattern : answers (exec (.attachPattern 3 2) (defined2 staged)) .ok [1] = true := by decide

theorem test_detachPattern : answers (exec (.detachPattern 3 2) (listed staged)) .ok [0] = true := by decide

theorem test_arm_armed : answers (exec (.arm 3) (staged.setLine 3 { pin := true, taken := true })) .ok [3] = true := by decide

theorem test_arm_probing : answers (exec (.arm 3) staged) .ok [4] = true := by decide

theorem test_disarm : yields (exec (.disarm 3) probing) (fun t =>
    (t.slot 3).state == .staged && t.binding 5 == some { owner := 3, addr := key }) = true := by decide

theorem test_wake : yields (exec (.wake 3) (scene (own .dark) held)) (fun t =>
    (t.slot 3).state == .waking && (t.slot 3).cause == some .command && (t.slot 3).counters.wakePulses == 1) = true := by decide

theorem test_release_immediate : answers (exec (.release 3 0) proxying) .ok [3, 1, 1, 0] = true := by decide

theorem test_release_announced : yields (exec (.release 3 1) { proxying with link := true }) (fun t =>
    t.mailbox.state == .executing { slot := 3, set := [5] } && (t.slot 3).outstanding == 1
      && t.tx.map (·.frame) == some (announcementFrame client key)) = true := by decide

theorem test_readSlot : yields (exec (.readSlot 3 0) waking) (fun t =>
    t.windowRead 0x52 == 0x2F && t.windowRead 0x53 == 6 && t.windowRead 0x5E == 5 && t.windowRead 0x74 == 50
      && t.windowRead 0x76 == 0x88 && t.windowRead 0x77 == 0x13) = true := by decide

theorem test_readEntry : yields (exec (.readEntry 5) proxying) (fun t =>
    t.windowRead 0x52 == 0x1B && t.windowRead 0x54 == 4 && t.windowRead 0x56 == 3 && t.windowRead 0x5B == 0x15) = true := by decide

theorem test_lookup : answers (exec (.lookup 1 (0x0A040715#128 <<< 96)) proxying) .ok [5, 3, 4] = true := by decide

theorem test_readAttention : yields (exec (.readAttention 0xFF) { bare with deviceAttention := 0x05 }) (fun t =>
    t.deviceAttention == 0 && t.windowRead 0x53 == 5) = true := by decide

theorem test_writePattern : yields (exec (.writePattern 2 191 1 0xFFFFFFFF (Vector.replicate 32 0xAA)) bare) (fun t =>
    (t.pattern 2).definition.map (fun d => (d.offset, d.mask, d.value[0], d.value[1])) == some (191, 1, 0xAA, 0)) = true := by
  decide

theorem test_clearPattern : answers (exec (.clearPattern 2) (listed staged)) .inUse [] = true := by decide

theorem test_readPattern : yields (exec (.readPattern 2) (listed staged)) (fun t =>
    t.windowRead 0x52 == 0x28 && t.windowRead 0x53 == 2 && t.windowRead 0x54 == 1 && t.windowRead 0x57 == 1) = true := by decide

theorem test_goRefused : yields (exec .goRefused releasing) (fun t => t.deviceAttention == 4) = true := by decide

theorem test_resetNAsserted : yields (exec .resetNAsserted (completed proxying)) (fun t =>
    t.resetAsserted && t.port.phase == .ignoring && (t.slot 3).state == .vacant
      && yields (exec .ack t) (fun u => u == t)) = true := by decide

/-! ### Witnesses: for each obligation with hypotheses, clause by clause, a state and operands that meet them -/

theorem witness_EmptyQueueStepCountsTime :
    State.reset.pending = [] ∧ State.reset.resetAsserted = false
      ∧ { State.reset with resetAsserted := true }.pending = [] ∧ { State.reset with resetAsserted := true }.resetAsserted = true := by
  decide

theorem witness_ResetAssertedHoldsPart :
    { State.reset with resetAsserted := true }.resetAsserted = true ∧ Instr.ack ≠ .resetNAsserted
      ∧ ∀ a l c, Instr.ack ≠ .powerOn a l c := ⟨by decide, by decide, fun _ _ _ => Instr.noConfusion⟩

/-- The longest argument list leaves the last bytes of the area, and a command without arguments all but one. -/
theorem witness_CommandAreaSpellsCommand :
    let i := Instr.writePattern 31 191 32 0xFFFFFFFF (Vector.replicate 32 0xFF)
    i.wellFormed = true ∧ commandCode i ≠ none ∧ bare.mailbox.state = .idle ∧ (commandArgs i).length < 63
      ∧ Instr.deviceReset.wellFormed = true ∧ commandCode .deviceReset ≠ none ∧ (commandArgs .deviceReset).length < 1 := by decide

theorem witness_CompletionWritesOutcome : (List.replicate 77 (0xFF : Byte)).length ≤ 77 ∧ ([] : List Byte).length ≤ 77 := by decide

theorem witness_GoWithoutEffect :
    (Settled (completed bare) ∧ (completed bare).mailbox.state ≠ .idle ∧ (Instr.arm 3).wellFormed = true ∧ commandCode (.arm 3) ≠ none)
      ∧ (Settled releasing ∧ releasing.mailbox.state ≠ .idle ∧ Instr.goRefused.wellFormed = true)
      ∧ Ready bare ∧ isCommandCode 0x00 = false ∧ isCommandCode 0x1E = false ∧ isCommandCode 0xFF = false := by decide

theorem witness_AckReturnsMailboxToIdle :
    (Settled (completed bare) ∧ (completed bare).mailbox.state = .complete ∧ inCommandArea 0x10 = true ∧ inCommandArea 0x4F = true)
      ∧ (Settled bare ∧ bare.mailbox.state ≠ .complete) ∧ Settled releasing ∧ releasing.mailbox.state ≠ .complete := by decide

/-- The laws of the records in a state whose one entry is entry 5, of slot 3. -/
theorem records_of_one (s : State) (b : Binding) (hb : ∀ e, s.binding e = if e = 5 then some b else none) (ho : b.owner = 3)
    (hu : b.addr.usable = true)
    (hw : ∀ k (w : Fin 4), (s.bucket k)[w] = if k = bucketOf b.addr ∧ w = 0 then some 5 else none)
    (ha : ∀ n, (s.slot n).addresses = if n = 3 then [5] else [])
    (hv : ∀ n, (s.slot n).state = .vacant → s.slot n = { counters := (s.slot n).counters })
    (hr : (match s.mailbox.state with
      | .executing r => r.set == [5] && r.slot == 3
      | .idle => true
      | .complete => true) = true) : RecordsLaw s := by
  refine ⟨fun n e => ?_, fun n => ?_, fun e c h => ?_, fun k w e h => ?_, fun k w v e h g => ?_, fun e f c d h g _ => ?_, hv,
    fun r h => ?_⟩
  · rw [ha, hb]
    by_cases hn : n = 3 <;> by_cases he : e = 5 <;> simp [hn, he, ho]
    exact fun h => hn h.symm
  · rw [ha]
    split <;> simp
  · rw [hb] at h
    split at h
    · rename_i he
      cases h
      subst he
      exact ⟨hu, 0, by rw [State.wayHolds, hw]; simp⟩
    · cases h
  · rw [State.wayHolds, hw] at h
    split at h
    · rename_i hk
      cases h
      exact ⟨b, by rw [hb]; simp, hk.1.symm⟩
    · cases h
  · rw [State.wayHolds, hw] at h g
    split at h
    · split at g
      · rename_i h1 h2
        rw [h1.2, h2.2]
      · cases g
    · cases h
  · rw [hb] at h g
    split at h
    · split at g
      · rename_i h1 h2
        rw [h1, h2]
      · cases g
    · cases h
  · rw [h] at hr
    simp only [Bool.and_eq_true, beq_iff_eq] at hr
    rw [hr.1, hr.2, ha]
    simp

theorem records_staged : RecordsLaw staged :=
  records_of_one _ { owner := 3, addr := key } (by decide) rfl (by decide) (by decide) (by decide) (by decide) (by decide)

theorem records_proxying : RecordsLaw proxying :=
  records_of_one _ { owner := 3, addr := key, claim := .held } (by decide) rfl (by decide) (by decide) (by decide) (by decide)
    (by decide)

theorem records_releasing : RecordsLaw releasing :=
  records_of_one _ { owner := 3, addr := key, duty := some .handback } (by decide) rfl (by decide) (by decide) (by decide)
    (by decide) (by decide)

theorem release_releasing : ReleaseLaw releasing := by
  have hm : releasing.mailbox.state = .executing { slot := 3, set := [5] } := by decide
  have hs : ∀ n, (releasing.slot n).state = .releasing ↔ n = 3 := by decide
  refine ⟨fun n => ?_, fun r h => ?_, by decide⟩
  · rw [hs, hm]
    constructor
    · rintro rfl
      exact ⟨_, rfl, rfl⟩
    · rintro ⟨r, h, hn⟩
      cases h
      exact hn.symm
  · rw [hm] at h
    cases h
    decide

theorem witness_AbortAndMisuse :
    (Settled (completed bare) ∧ ∀ r, (completed bare).mailbox.state ≠ .executing r)
      ∧ ((0x00#8 ≠ 0x01#8 ∧ 0x00#8 ≠ 0x02#8 ∧ 0x00#8 ≠ 0x04#8) ∧ 0x05#8 ≠ 0x01#8 ∧ 0x05#8 ≠ 0x02#8 ∧ 0x05#8 ≠ 0x04#8)
      ∧ Settled releasing ∧ RecordsLaw releasing ∧ ∃ r, releasing.mailbox.state = .executing r :=
  ⟨⟨by decide, fun _ h => MailboxState.noConfusion h⟩, by decide, by decide, records_releasing, _, rfl⟩

theorem witness_WindowWrites :
    (Settled bare ∧ inCommandArea 0x10 = true ∧ inCommandArea 0x4F = true ∧ bare.mailbox.state = .idle)
      ∧ (Settled (completed bare) ∧ (completed bare).mailbox.state ≠ .idle)
      ∧ inCommandArea 0x0F = false ∧ inCommandArea 0x50 = false ∧ (0x0F#8 ≠ 0x04#8) ∧ (0x05#8 ≠ 0x04#8) ∧ inCommandArea 0x05 = false
      ∧ (Settled releasing ∧ releasing.mailbox.state ≠ .idle) ∧ (0x00#8 ≠ 0x01#8 ∧ 0x00#8 ≠ 0x02#8 ∧ 0x00#8 ≠ 0x04#8)
      ∧ 0x05#8 ≠ 0x01#8 ∧ 0x05#8 ≠ 0x02#8 ∧ 0x05#8 ≠ 0x04#8 := by
  decide

theorem witness_WindowReads : (0x09 ≤ 0x09 ∧ 0x09 ≤ 0x0F) ∧ (0x09 ≤ 0x0F ∧ 0x0F ≤ 0x0F) ∧ 0xA0 ≤ 0xA0 ∧ 0xA0 ≤ 0x100 ∧ 2 ≤ 2 := by
  decide

/-- The phases of a transaction, each with its boundary offsets and bit counts. -/
theorem witness_PortTransactions :
    let at' := fun (p : PortPhase) (l : List Bool) => { bare with port := { phase := p, bits := l } }
    (bare.resetAsserted = false ∧ { bare with resetAsserted := true }.resetAsserted = true ∧ bare.port.phase = .idle)
    ∧ (bare.csFalls.port.phase = .direction ∧ bare.csFalls.port.phase ≠ .idle ∧ bare.csFalls.port.bits.length < 7)
    ∧ ((at' .direction ((List.range 7).map fun k => (0x80#8).getLsbD (7 - k))).port.bits
        = (List.range 7).map fun k => (0x80#8).getLsbD (7 - k))
    ∧ (∀ p ∈ [PortPhase.ignoring, .start false, .start true, .reading 7 [], .reading 8 [], .reading 254 [], .reading 255 [],
        .writing 255, .writing 256], (at' p []).port.phase = p)
    ∧ (8#8).toNat ≤ 8 := by decide

/-- Each check of SET_STATION, and an address that passes them. -/
theorem witness_SetStationOutcome :
    Ready staged ∧ Ready proxying ∧ Ready armed ∧ isGroup 0x010000000000#48 = true
      ∧ (isGroup other = false ∧ (proxying.slot 3).mode = some .own ∧ (proxying.slot 3).state.standsIn = true)
      ∧ (isGroup 0 = false ∧ (armed.slot 3).mode = some .own ∧ (armed.slot 3).state = .armed)
      ∧ (∀ n, ¬ ((armed.slot n).mode = some .own ∧ ((armed.slot n).state.standsIn = true ∨ (armed.slot n).state = .releasing)))
      ∧ (isGroup client = false ∧ client ≠ 0 ∧ (armed.slot 3).client = some client)
      ∧ (∀ n, (armed.slot n).client ≠ some other) ∧ other ≠ 0
      ∧ ∀ n, ¬ ((staged.slot n).mode = some .own ∧ (staged.slot n).state = .armed) := by decide

/-- The boundaries of the segment tag and of the three timings. -/
theorem witness_SegmentAndTimingOutcome :
    (Ready staged ∧ 4095 ≤ (4095 : BitVec 16).toNat ∧ (4094 : BitVec 16).toNat < 4095
      ∧ (∀ n, (staged.slot n).state = .vacant ∨ (staged.slot n).state = .staged))
    ∧ (Ready armed ∧ ¬ ∀ n, (armed.slot n).state = .vacant ∨ (armed.slot n).state = .staged)
    ∧ (Ready probing ∧ ∃ n, (probing.slot n).state = .probing)
    ∧ timingInRange (1#8).toNat (100#16).toNat (1#8).toNat = true ∧ timingInRange (7#8).toNat (2550#16).toNat (60#8).toNat = true
    ∧ timingInRange (8#8).toNat (100#16).toNat (1#8).toNat = false ∧ ¬ ∃ n, (armed.slot n).state = .probing := by decide

theorem witness_SetAttentionMaskOutcome :
    Ready bare ∧ ((0x7F#8).getLsbD 7 = false ∧ (0x0F#8).toNat < 16 ∧ (0x01#8 = 0x00#8 ∨ 0x01#8 = 0x01#8))
      ∧ ¬ ((0x80#8).getLsbD 7 = false) ∧ ¬ ((0x10#8).toNat < 16) ∧ ¬ (0x02#8 = 0x00#8 ∨ 0x02#8 = 0x01#8) := by decide

theorem witness_DeviceResetOutcome :
    Ready (sending .answerV4 proxying) ∧ (sending .answerV4 proxying).tx ≠ none ∧ Ready proxying ∧ proxying.tx = none := by decide

theorem witness_OpenSlotOutcome :
    Ready staged ∧ ¬ ((16#8).toNat < 16) ∧ (15 : Fin 16).val = (15#8).toNat
      ∧ (other ≠ 0 ∧ isGroup other = false) ∧ (staged.slot 3).state ≠ .vacant ∧ (staged.slot 15).state = .vacant
      ∧ (client ≠ 0 ∧ isGroup client = false ∧ (staged.slot 3).client = some client)
      ∧ ((∀ m, (staged.slot m).client ≠ some other) ∧ other ≠ staged.settings.station)
      ∧ Ready State.reset ∧ (∀ m, (State.reset.slot m).client ≠ some other) ∧ State.reset.settings.station = 0 := by decide

/-- The boundaries of R7: a pulse of 255 ms and a timeout of 300 ms; 99 ms and 100 ms; 25,500 ms; 7 retries. -/
theorem witness_SetSlotPolicyOutcome :
    Ready staged ∧ (staged.slot 3).state = .staged ∧ Ready armed ∧ (armed.slot 3).state ≠ .staged ∧ (3 : Fin 16).val = (3#8).toNat
      ∧ policyInRange (255#8).toNat (300#16).toNat (7#8).toNat = true ∧ policyInRange (99#8).toNat (100#16).toNat 0 = true
      ∧ policyInRange (1#8).toNat (25500#16).toNat 0 = true ∧ policyInRange (100#8).toNat (100#16).toNat 0 = false := by decide

/-- Slot 3 with 8 entries in its list. -/
def fullList : State := staged.modSlot 3 fun x => { x with addresses := [0, 1, 2, 3, 4, 6, 7, 8] }
/-- No entry is FREE. -/
def fullPool : State := { staged with entries := Vector.replicate 96 { gen := 0, binding := some { owner := 3, addr := key } } }
/-- No way of bucket 28 is empty. -/
def fullBucket : State := { staged with index := staged.index.set 28 (Vector.replicate 4 (some 5)) }
def arg85 : BitVec 128 := 0x0A040755#128 <<< 96
def key85 : Addr := .v4 0x0A040755#32

/-- The boundaries of R11: 0.0.0.0, 223 to 240, 255.255.255.255; the unspecified address, FEh and FFh. -/
theorem test_addressRefused :
    (addressRefused 0 arg85 ∧ addressRefused 3 arg85 ∧ addressRefused 0xFF arg85)
    ∧ (addressRefused 1 0 ∧ addressRefused 1 (0xE0#128 <<< 120) ∧ addressRefused 1 (0xEF#128 <<< 120)
      ∧ addressRefused 1 (0xFFFFFFFF#128 <<< 96))
    ∧ (¬ addressRefused 1 (1#128 <<< 96) ∧ ¬ addressRefused 1 (0xDF#128 <<< 120) ∧ ¬ addressRefused 1 (0xF0#128 <<< 120)
      ∧ ¬ addressRefused 1 (0xFFFFFFFE#128 <<< 96))
    ∧ (addressRefused 2 0 ∧ addressRefused 2 (0xFF#128 <<< 120)) ∧ ¬ addressRefused 2 1 ∧ ¬ addressRefused 2 (0xFE#128 <<< 120) :=
  ⟨by decide, by decide, by decide, by decide, by decide, by decide⟩

theorem witness_AddAddressOutcome :
    (Ready staged ∧ 16 ≤ (16#8).toNat ∧ addressRefused 1 0)
    ∧ (3 : Fin 16).val = (3#8).toNat
    ∧ (¬ addressRefused 1 arg85 ∧ addressGiven 1 arg85 = key85
      ∧ ¬ addressRefused 1 (0x0A040715#128 <<< 96) ∧ addressGiven 1 (0x0A040715#128 <<< 96) = key)
    ∧ (Ready armed ∧ (armed.slot 3).state ≠ .staged)
    ∧ (Ready fullList ∧ (fullList.slot 3).state = .staged ∧ 8 ≤ (fullList.slot 3).addresses.length)
    ∧ (Ready fullPool ∧ (fullPool.slot 3).state = .staged ∧ (fullPool.slot 3).addresses.length < 8
      ∧ ∀ e, fullPool.binding e ≠ none)
    ∧ ((staged.slot 3).state = .staged ∧ (staged.slot 3).addresses.length < 8 ∧ staged.binding 0 = none
      ∧ staged.wayHolds (bucketOf key) 0 5 ∧ staged.binding 5 = some { owner := 3, addr := key })
    ∧ (∀ w e, staged.wayHolds (bucketOf key85) w e → e = 5) ∧ key ≠ key85
    ∧ (Ready fullBucket ∧ (fullBucket.slot 3).state = .staged ∧ fullBucket.binding 0 = none
      ∧ (∀ w : Fin 4, (fullBucket.bucket (bucketOf key85))[w] ≠ none) ∧ ∀ w e, fullBucket.wayHolds (bucketOf key85) w e → e = 5)
    ∧ (staged.bucket (bucketOf key85))[(1 : Fin 4)] = none
    ∧ ∀ v : Fin 4, v < 1 → (staged.bucket (bucketOf key85))[v] ≠ none :=
  ⟨by decide, by decide, by decide, by decide, by decide, by decide, by decide, by decide, by decide, by decide, by decide, by decide⟩

theorem witness_RemoveAddressOutcome :
    (Ready staged ∧ RecordsLaw staged ∧ 96 ≤ (96#8).toNat)
    ∧ ((95 : Fin 96).val = (95#8).toNat ∧ staged.binding 95 = none)
    ∧ ((5 : Fin 96).val = (5#8).toNat ∧ staged.binding 5 = some { owner := 3, addr := key } ∧ (staged.slot 3).state = .staged)
    ∧ Ready proxying ∧ RecordsLaw proxying ∧ proxying.binding 5 = some { owner := 3, addr := key, claim := .held }
    ∧ (proxying.slot 3).state ≠ .staged :=
  ⟨⟨by decide, records_staged, by decide⟩, by decide, by decide, by decide, records_proxying, by decide⟩

/-- Slot 3 with 4 other patterns in its list, and pattern 2 DEFINED. -/
def fullPatterns : State := (defined2 staged).modSlot 3 fun x => { x with patterns := [4, 5, 6, 7] }

theorem witness_PatternListOutcome :
    (Ready staged ∧ ¬ (32#8).toNat < 32 ∧ (2 : Fin 32).val = (2#8).toNat ∧ (3 : Fin 16).val = (3#8).toNat)
    ∧ (Ready (listed staged) ∧ 2 ∈ ((listed staged).slot 3).patterns ∧ ((listed staged).slot 3).state = .staged)
    ∧ (Ready armed ∧ 2 ∉ (armed.slot 3).patterns ∧ (armed.slot 3).state ≠ .staged)
    ∧ (2 ∉ (staged.slot 3).patterns ∧ (staged.slot 3).state = .staged ∧ (staged.pattern 2).definition = none)
    ∧ (Ready fullPatterns ∧ 2 ∉ (fullPatterns.slot 3).patterns ∧ (fullPatterns.pattern 2).definition ≠ none
      ∧ 4 ≤ (fullPatterns.slot 3).patterns.length ∧ (fullPatterns.slot 3).state = .staged)
    ∧ Ready (defined2 staged) ∧ 2 ∉ ((defined2 staged).slot 3).patterns ∧ ((defined2 staged).pattern 2).definition ≠ none
    ∧ ((defined2 staged).slot 3).patterns.length < 4 ∧ ((defined2 staged).slot 3).state = .staged := by decide

def noStation : State := { staged with settings := { station := 0 } }
def noAddress : State := staged.modSlot 3 fun x => { x with addresses := [] }
def stagedAwake : State := staged.setLine 3 { pin := true, taken := true }

theorem witness_ArmOutcome :
    (Ready staged ∧ 16 ≤ (16#8).toNat ∧ (3 : Fin 16).val = (3#8).toNat)
    ∧ (Ready armed ∧ (armed.slot 3).state ≠ .staged)
    ∧ (Ready noStation ∧ (noStation.slot 3).state = .staged ∧ (noStation.slot 3).mode = some .own ∧ noStation.settings.station = 0)
    ∧ (Ready noAddress ∧ (noAddress.slot 3).state = .staged ∧ noAddress.settings.station ≠ 0 ∧ (noAddress.slot 3).addresses = [])
    ∧ (Ready stagedAwake ∧ (stagedAwake.slot 3).state = .staged ∧ stagedAwake.settings.station ≠ 0
      ∧ (stagedAwake.slot 3).addresses ≠ [] ∧ (stagedAwake.line 3).taken = true)
    ∧ (staged.slot 3).state = .staged ∧ staged.settings.station ≠ 0 ∧ (staged.slot 3).addresses ≠ [] ∧ (staged.line 3).taken = false
    ∧ staged.link = false := by decide

def dark : State := scene (own .dark) held

theorem witness_DisarmAndWakeOutcome :
    (16 ≤ (16#8).toNat ∧ (3 : Fin 16).val = (3#8).toNat)
    ∧ (Ready staged ∧ (staged.slot 3).state ≠ .armed ∧ (staged.slot 3).state ≠ .probing ∧ (staged.slot 3).state ≠ .proxying
      ∧ (staged.slot 3).state ≠ .dark)
    ∧ (Ready armed ∧ (armed.slot 3).state = .armed) ∧ (Ready probing ∧ (probing.slot 3).state = .probing)
    ∧ (Ready proxying ∧ (proxying.slot 3).state = .proxying) ∧ Ready dark ∧ (dark.slot 3).state = .dark := by decide

theorem release_proxying : ReleaseLaw proxying := by
  have hs : ∀ n, (proxying.slot n).state ≠ .releasing := by decide
  exact ⟨fun n => ⟨fun h => absurd h (hs n), fun ⟨_, h, _⟩ => MailboxState.noConfusion h⟩, fun _ h => MailboxState.noConfusion h,
    by decide⟩

theorem witness_ReleaseImmediate :
    ReleaseLaw proxying ∧
    (Ready proxying ∧ RecordsLaw proxying ∧ ¬ ((16#8).toNat < 16) ∧ ¬ (0x02#8 = 0x00#8 ∨ 0x02#8 = 0x01#8))
    ∧ ((15 : Fin 16).val = (15#8).toNat ∧ (proxying.slot 15).state = .vacant)
    ∧ ((3 : Fin 16).val = (3#8).toNat ∧ (proxying.slot 3).state ≠ .vacant ∧ ¬ (0x00#8 = 0x01#8))
    ∧ Ready staged ∧ RecordsLaw staged ∧ (staged.slot 3).state ≠ .vacant ∧ ¬ (staged.slotHeld 3 = true) :=
  ⟨release_proxying, ⟨by decide, records_proxying, by decide⟩, by decide, by decide, by decide, records_staged, by decide⟩

theorem witness_ReleaseWithAnnouncement :
    Ready proxying ∧ (3 : Fin 16).val = (3#8).toNat ∧ (proxying.slot 3).state ≠ .vacant ∧ (proxying.slot 3).mode = some .own
      ∧ proxying.slotHeld 3 = true ∧ proxying.link = false := by decide

theorem witness_ReadsChangeNothing :
    RecordsLaw proxying ∧ Ready proxying ∧ (0x02#8 ≠ 0x00#8 ∧ 0x02#8 ≠ 0x01#8) ∧ 16 ≤ (16#8).toNat ∧ (15 : Fin 16).val = (15#8).toNat
      ∧ 96 ≤ (96#8).toNat ∧ (95 : Fin 96).val = (95#8).toNat ∧ 32 ≤ (32#8).toNat ∧ (31 : Fin 32).val = (31#8).toNat
      ∧ addressRefused 0 0 ∧ (¬ addressRefused 1 arg85 ∧ addressGiven 1 arg85 = key85 ∧ proxying.lookup key85 = none)
      ∧ (¬ addressRefused 1 (0x0A040715#128 <<< 96) ∧ addressGiven 1 (0x0A040715#128 <<< 96) = key ∧ proxying.lookup key = some 5)
      ∧ proxying.binding 5 = some { owner := 3, addr := key, claim := .held } := ⟨records_proxying, by decide⟩

theorem witness_ReadAttentionEmptiesSet :
    Ready proxying ∧ (16 ≤ (16#8).toNat ∧ 16#8 ≠ 0xFF#8) ∧ (0xFE#8 ≠ 0xFF#8) ∧ (15 : Fin 16).val = (15#8).toNat := by decide

theorem witness_ResponsePlaces :
    (proxying.entry 0).binding = none ∧ (proxying.entry 5).binding = some { owner := 3, addr := key, claim := .held }
      ∧ (((scene (own .proxying) defended).modBinding 5 fun b => { b with addr := .v6 1 }).binding 5).map (fun b => (b.addr, b.defenceDue))
        = some (.v6 1, some 10000)
      ∧ (staged.pattern 2).definition = none ∧ ((listed staged).pattern 2).definition = some firstByte
      ∧ ((waking.slot 3).pulseDue = some 50 ∧ (waking.slot 3).timeoutDue = some 5000 ∧ (proxying.slot 3).timeoutDue = none)
      ∧ (proxying.slot 3).cause = none
      ∧ ∀ c ∈ [WakeCause.pattern 2, .command, .loss], { own .waking with cause := some c }.cause = some c := by decide

theorem witness_PatternEdits :
    Ready staged ∧ patternInRange (192#8).toNat (1#8).toNat 1 = false ∧ patternInRange (191#8).toNat (33#8).toNat 1 = false
      ∧ ((31#8).toNat < 32 ∧ (191#8).toNat ≤ 191 ∧ 1 ≤ (32#8).toNat ∧ (32#8).toNat ≤ 32
        ∧ ∃ k, k < (32#8).toNat ∧ (0x80000000#32).getLsbD k = true)
      ∧ (31 : Fin 32).val = (31#8).toNat ∧ (staged.pattern 31).refs = 0
      ∧ Ready (listed staged) ∧ ((listed staged).pattern 2).refs ≠ 0 ∧ 32 ≤ (32#8).toNat :=
  ⟨by decide, by decide, by decide, ⟨by decide, by decide, by decide, by decide, 31, by decide, by decide⟩, by decide⟩

/-- With the filter of slot 3 at `x`. -/
def filtered (x : Filter) (s : State) : State := s.setLine 3 x

theorem witness_RiseHandsBack :
    (∀ x ∈ [(⟨true, true, 0⟩ : Filter), ⟨true, false, 3⟩, ⟨false, false, 3⟩, ⟨true, false, 2⟩],
      Settled (filtered x staged) ∧ ((filtered x staged).slot 3).state.standsIn = false
      ∧ Settled (filtered x proxying) ∧ ((filtered x proxying).slot 3).state.standsIn = true) := by decide

theorem witness_FallStartsProbing :
    (∀ x ∈ [(⟨false, false, 0⟩ : Filter), ⟨false, true, 3⟩, ⟨true, true, 3⟩, ⟨false, true, 2⟩],
      Settled (filtered x staged) ∧ ((filtered x staged).slot 3).state ≠ .armed
      ∧ Settled (filtered x armed) ∧ ((filtered x armed).slot 3).state = .armed) := by decide

/-- The release of two entries, one of whose handbacks is being sent. -/
def releasingTwo : State :=
  let s := ((releasing.modSlot 3 fun x => { x with outstanding := 2 }).insert 3 key85 6 1).modBinding 6 fun b => { b with
    duty := some .handback }
  { s with mailbox := { s.mailbox with state := .executing { slot := 3, set := [5, 6] } } }

theorem release_releasingTwo : ReleaseLaw releasingTwo := by
  have hm : releasingTwo.mailbox.state = .executing { slot := 3, set := [5, 6] } := by decide
  have hs : ∀ n, (releasingTwo.slot n).state = .releasing ↔ n = 3 := by decide
  refine ⟨fun n => ?_, fun r h => ?_, by decide⟩
  · rw [hs, hm]
    constructor
    · rintro rfl
      exact ⟨_, rfl, rfl⟩
    · rintro ⟨r, h, hn⟩
      cases h
      exact hn.symm
  · rw [hm] at h
    cases h
    decide

/-- Entry 6 of that release owes nothing any more; and neither entry does. -/
def oneLeft : State := sending .answerV4 (releasingTwo.modBinding 6 fun b => { b with duty := none })
def bothLeft : State := sending .answerV4 (releasingTwo.modBindings [5, 6] fun b => { b with duty := none })

/-- Two entries of slot 3 alone. -/
theorem records_of_two (s : State) (b c : Binding)
    (hb : ∀ e, s.binding e = if e = 5 then some b else if e = 6 then some c else none) (ho : b.owner = 3 ∧ c.owner = 3)
    (ha : b.addr = key ∧ c.addr = key85)
    (hw : ∀ k (w : Fin 4), (s.bucket k)[w] = if k = 28 ∧ w = 0 then some 5 else if k = 28 ∧ w = 1 then some 6 else none)
    (hl : ∀ n, (s.slot n).addresses = if n = 3 then [5, 6] else [])
    (hv : ∀ n, (s.slot n).state = .vacant → s.slot n = { counters := (s.slot n).counters })
    (hr : s.mailbox.state = .executing { slot := 3, set := [5, 6] }) : RecordsLaw s := by
  have hk : bucketOf key = 28 ∧ bucketOf key85 = 28 := by decide
  have hu : key.usable = true ∧ key85.usable = true ∧ key ≠ key85 := by decide
  have mem : ∀ e x, s.binding e = some x → (e = 5 ∧ x = b) ∨ (e = 6 ∧ x = c) := by
    intro e x h
    rw [hb] at h
    split at h
    · rename_i he
      cases h
      exact .inl ⟨he, rfl⟩
    · split at h
      · rename_i he
        cases h
        exact .inr ⟨he, rfl⟩
      · cases h
  have way : ∀ k w e, s.wayHolds k w e → k = 28 ∧ ((w = 0 ∧ e = 5) ∨ (w = 1 ∧ e = 6)) := by
    intro k w e h
    rw [State.wayHolds, hw] at h
    split at h
    · rename_i hk
      cases h
      exact ⟨hk.1, .inl ⟨hk.2, rfl⟩⟩
    · split at h
      · rename_i hk
        cases h
        exact ⟨hk.1, .inr ⟨hk.2, rfl⟩⟩
      · cases h
  have h5 : s.binding 5 = some b := by rw [hb]; rfl
  have h6 : s.binding 6 = some c := by rw [hb]; rfl
  refine ⟨fun n e => ?_, fun n => ?_, fun e x h => ?_, fun k w e h => ?_, fun k w v e h g => ?_, fun e f x y h g hxy => ?_, hv,
    fun r h => ?_⟩
  · constructor
    · intro h
      rw [hl] at h
      split at h
      · rename_i hn
        rcases List.mem_pair.mp h with rfl | rfl
        · exact ⟨b, h5, ho.1.trans hn.symm⟩
        · exact ⟨c, h6, ho.2.trans hn.symm⟩
      · cases h
    · rintro ⟨x, h, hn⟩
      rcases mem e x h with ⟨rfl, rfl⟩ | ⟨rfl, rfl⟩
      · rw [← hn, ho.1, hl]; simp
      · rw [← hn, ho.2, hl]; simp
  · rw [hl]
    split <;> simp
  · rcases mem e x h with ⟨rfl, rfl⟩ | ⟨rfl, rfl⟩
    · rw [ha.1, hk.1]
      exact ⟨hu.1, 0, by rw [State.wayHolds, hw]; rfl⟩
    · rw [ha.2, hk.2]
      exact ⟨hu.2.1, 1, by rw [State.wayHolds, hw]; rfl⟩
  · obtain ⟨rfl, ⟨rfl, rfl⟩ | ⟨rfl, rfl⟩⟩ := way k w e h
    · exact ⟨b, h5, by rw [ha.1, hk.1]⟩
    · exact ⟨c, h6, by rw [ha.2, hk.2]⟩
  · obtain ⟨-, ⟨rfl, rfl⟩ | ⟨rfl, rfl⟩⟩ := way k w e h <;> obtain ⟨-, ⟨rfl, he⟩ | ⟨rfl, he⟩⟩ := way k v _ g <;>
      first | rfl | exact absurd he (by decide)
  · rcases mem e x h with ⟨rfl, rfl⟩ | ⟨rfl, rfl⟩ <;> rcases mem f y g with ⟨rfl, rfl⟩ | ⟨rfl, rfl⟩
    · rfl
    · exact absurd (ha.1.symm.trans (hxy.trans ha.2)) hu.2.2
    · exact absurd (ha.1.symm.trans (hxy.symm.trans ha.2)) hu.2.2
    · rfl
  · rw [hr] at h
    cases h
    rw [hl]
    simp

/-- Link loss with the link down; with the link up and no release; and in a release whose handbacks have all gone with it, of whose
handbacks one has, and of which none has. -/
theorem witness_LinkLossOutcome :
    (Settled proxying ∧ proxying.link = false)
    ∧ (let s := sending .answerV4 probing
      Settled s ∧ s.link = true ∧ (∀ r, s.mailbox.state ≠ .executing r)
        ∧ s.binding 5 = some { owner := 3, addr := key, claim := .tentative, duty := some .probe })
    ∧ (let s := sending .answerV4 releasing
      Settled s ∧ s.link = true ∧ s.mailbox.state = .executing { slot := 3, set := [5] } ∧ ReleaseLaw s ∧ RecordsLaw s
        ∧ s.duty 5 = some .handback)
    ∧ (∀ s ∈ [oneLeft, bothLeft], Settled s ∧ s.link = true ∧ s.mailbox.state = .executing { slot := 3, set := [5, 6] }
        ∧ s.duty 6 = none ∧ s.queue = [] ∧ s.tx.map (·.kind) = some .answerV4)
    ∧ (oneLeft.duty 5 = some .handback ∧ bothLeft.duty 5 = none)
    ∧ (ReleaseLaw oneLeft ∧ RecordsLaw oneLeft) ∧ ReleaseLaw bothLeft ∧ RecordsLaw bothLeft :=
  ⟨by decide, ⟨by decide, by decide, fun _ h => MailboxState.noConfusion h, by decide⟩,
    ⟨by decide, by decide, by decide, release_releasing, records_releasing, by decide⟩, by decide, by decide,
    ⟨release_releasingTwo, records_of_two _ { owner := 3, addr := key, duty := some .handback } { owner := 3, addr := key85 }
      (by decide) (by decide) (by decide) (by decide) (by decide) (by decide) (by decide)⟩,
    release_releasingTwo, records_of_two _ { owner := 3, addr := key } { owner := 3, addr := key85 }
      (by decide) (by decide) (by decide) (by decide) (by decide) (by decide) (by decide)⟩

theorem witness_LinkUpOutcome :
    (Settled (sending .answerV4 probing) ∧ (sending .answerV4 probing).link = true)
    ∧ (Settled proxying ∧ proxying.link = false ∧ proxying.queue = [] ∧ proxying.tx = none ∧ ∀ e, proxying.duty e = none)
    ∧ Settled probing ∧ probing.link = false ∧ probing.duty 5 ≠ none := by decide

theorem witness_SegmentTagTest : 18 ≤ (List.replicate 18 (0 : Byte)).length ∧ (4094#12) ≠ 0 ∧ (1#12) ≠ 0 := by decide

/-- A V6 solicitation of another station for 2001:0DB8::21, its checksum right. -/
def solicit : List Byte := probeFrame other (.v6 0x20010DB8000000000000000000000021#128)
/-- An IPv4 frame to the station address, for 10.4.7.21. -/
def ownUnicast : List Byte :=
  linkBytes station ++ linkBytes other ++ toBytesBE 2 typeIPv4 ++ List.replicate 16 0 ++ toBytesBE 4 0x0A040715 ++ List.replicate 26 0

/-- Each class, in the terms of its conditions: a V4 request, V6 messages with a right and a wrong checksum, frames to a group, to the client
of a MIRRORED slot, to a held address of an OWN slot, and to neither. -/
theorem witness_Classification :
    (field (request 0) 12 2 = 0x0806 ∧ field (request 0) 20 2 = 1 ∧ 42 ≤ (request 0).length)
    ∧ (∀ f ∈ [solicit, badChecksum], field f 12 2 = 0x86DD ∧ field f 20 1 = 58 ∧ field f 21 1 = 255 ∧ field f 55 1 = 0
      ∧ 24 ≤ field f 18 2 ∧ 54 + field f 18 2 ≤ f.length ∧ field f 62 1 ≠ 0xFF)
    ∧ (field solicit 54 1 = 135 ∧ field solicit 38 16 = 0xFF0200000000000000000001FF000000 + field solicit 62 16 % 2 ^ 24
      ∧ field solicit 56 2 = frameChecksum solicit)
    ∧ (field badChecksum 54 1 = 136 ∧ field badChecksum 56 2 ≠ frameChecksum badChecksum)
    ∧ (∀ f ∈ [unicast, ownUnicast, stray], field f 12 2 = 0x0800 ∧ (BitVec.ofNat 48 (field f 0 6)).getLsbD 40 = false)
    ∧ ((BitVec.ofNat 48 (field (linkBytes allNodesLink) 0 6)).getLsbD 40 = true)
    ∧ (∀ n, ((scene (mirrored .proxying) held).slot n).mode = some .mirrored
        ∧ ((scene (mirrored .proxying) held).slot n).client = some (BitVec.ofNat 48 (field unicast 0 6)) ↔ n = 3)
    ∧ (BitVec.ofNat 48 (field ownUnicast 0 6) = proxying.settings.station ∧ BitVec.ofNat 32 (field ownUnicast 30 4) = 0x0A040715#32
      ∧ proxying.lookup key = some 5 ∧ proxying.claim 5 = some .held ∧ (proxying.slot 3).mode = some .own
      ∧ ∀ n, (proxying.slot n).mode ≠ some .mirrored)
    ∧ 3 + 2 < (request 0).length := by decide

theorem witness_FramesCountedOnly :
    Settled proxying ∧ proxying.accept (onWire stray) false = .refused ∧ proxying.accept (onWire stray) true = .ignored
      ∧ proxying.accept (onWire unicast) true = .taken unicast ∧ proxying.classify unicast = .other
      ∧ proxying.accept (onWire badChecksum) true = .taken badChecksum ∧ proxying.classify badChecksum = .dropped := by decide

/-- A V4 REPLY of another station from 10.4.7.21 is a claim of use; a V4 REQUEST for it from 0.0.0.0 is a probe. -/
theorem claims_reply (b : Binding) (s : State) (h : s.accept (onWire reply) true = .taken reply)
    (hc : s.classify reply = .resolution (.v4 false 0x0A040715 0x0A040709)) (hl : s.lookup key = some 5) (hb : s.binding 5 = some b)
    (hs : (s.slot b.owner).client ≠ some (sourceLink reply) ∧ ¬ (s.settings.station ≠ 0 ∧ sourceLink reply = s.settings.station)) :
    Claims (onWire reply) true s (.v4 false 0x0A040715 0x0A040709) .use 5 b :=
  ⟨reply, key, h, hc, by decide, hl, hb, hs.1, hs.2⟩

/-- Slot 3 PROBING with entry 5 and a second entry 6, for 10.4.7.85, changed by `b`. -/
def probingTwo (b : Binding → Binding) : State := (probing.insert 3 key85 6 1).modBinding 6 b

theorem witness_ClaimAgainstTentative :
    let b : Binding := { owner := 3, addr := key, claim := .tentative, duty := some .probe }
    (Settled probing ∧ Claims (onWire reply) true probing (.v4 false 0x0A040715 0x0A040709) .use 5 b ∧ (probing.slot 3).state = .probing)
    ∧ Claims (onWire reply) true (probingTwo tentative) (.v4 false 0x0A040715 0x0A040709) .use 5 b
    ∧ Claims (onWire reply) true (probingTwo held) (.v4 false 0x0A040715 0x0A040709) .use 5 b
    ∧ ((probingTwo tentative).slot 3).addresses = [5, 6] ∧ (probingTwo tentative).claim 6 = some .tentative
    ∧ (probingTwo held).isHeld 6 = true ∧ ((probingTwo held).slot 3).state = .probing :=
  ⟨⟨by decide, claims_reply _ _ (by decide) (by decide) (by decide) (by decide) (by decide), by decide⟩,
    claims_reply _ _ (by decide) (by decide) (by decide) (by decide) (by decide),
    claims_reply _ _ (by decide) (by decide) (by decide) (by decide) (by decide), by decide, by decide, by decide, by decide⟩

theorem witness_FirstClaim :
    let b : Binding := { owner := 3, addr := key, claim := .held }
    (Settled proxying ∧ (proxying.slot 3).state.defends = true ∧ proxying.link = false)
    ∧ Claims (onWire reply) true proxying (.v4 false 0x0A040715 0x0A040709) .use 5 b
    ∧ Claims (onWire (request 0)) true proxying (.v4 true 0 0x0A040715) .probe 5 b
    ∧ Claims (onWire reply) true (sending .answerV4 proxying) (.v4 false 0x0A040715 0x0A040709) .use 5 b
    ∧ (sending .answerV4 proxying).link = true ∧ (sending .answerV4 proxying).tx ≠ none ∧ (sending .answerV4 proxying).queue.length < 16
    ∧ proxying.accept (onWire reply) true = .taken reply :=
  ⟨by decide, claims_reply _ _ (by decide) (by decide) (by decide) (by decide) (by decide),
    ⟨request 0, key, by decide, by decide, by decide, by decide, by decide, by decide, by decide⟩,
    claims_reply _ _ (by decide) (by decide) (by decide) (by decide) (by decide), by decide, by decide, by decide, by decide⟩

def defending (x : Slot) : State := scene x defended
def defendedBinding : Binding := { owner := 3, addr := key, claim := .defended, defenceDue := some 10000, duty := some .defend }

theorem witness_SecondClaim :
    let wakes := defending { own .proxying with loss := .wake }
    (Settled wakes ∧ Claims (onWire reply) true wakes (.v4 false 0x0A040715 0x0A040709) .use 5 defendedBinding
      ∧ (wakes.slot 3).state.defends = true ∧ (wakes.slot 3).loss = .wake)
    ∧ Claims (onWire reply) true (defending wakingSlot) (.v4 false 0x0A040715 0x0A040709) .use 5 defendedBinding
    ∧ ((defending wakingSlot).slot 3).state.defends = true :=
  ⟨⟨by decide, claims_reply _ _ (by decide) (by decide) (by decide) (by decide) (by decide), by decide, by decide⟩,
    claims_reply _ _ (by decide) (by decide) (by decide) (by decide) (by decide), by decide⟩

/-- A request from 10.4.7.9, which no entry binds: for a held address with a free place, with the transmitter idle, with the link down,
and for an address in a DARK slot. -/
theorem witness_RequestAnswered :
    let r := ResFrame.v4 true 0x0A040709 0x0A040715
    let f := request 0x0A040709
    (∀ s ∈ [proxying, sending .answerV4 proxying, { proxying with link := true }, dark],
      Settled s ∧ s.accept (onWire f) true = .taken f ∧ s.classify f = .resolution r ∧ s.lookup (.v4 0x0A040709) = none
        ∧ s.lookup key = some 5 ∧ (s.binding 5).map (·.claim) = some .held)
    ∧ r.asked = some key ∧ r.claimed = some (.v4 0x0A040709, .use)
    ∧ r.answer other 5 0 = some (.answerV4 5 0 other 0x0A040709)
    ∧ ((sending .answerV4 proxying).link = true ∧ (sending .answerV4 proxying).queue.length < 12 ∧ (sending .answerV4 proxying).tx ≠ none)
    ∧ (proxying.tx = none ∧ ∀ c, proxying.duty c = none) ∧ proxying.link = false ∧ (proxying.slot 3).state = .proxying
    ∧ (dark.slot 3).state = .dark := by decide

/-- No evidence: a frame from the entry's own client, and a probe for a held address. Evidence that is ignored: against an entry that is
QUIET, LOST or in a DARK slot. Evidence that is acted on: against a TENTATIVE entry, and a claim of use against a held one. -/
theorem witness_ClaimStep :
    let b : Binding := { owner := 3, addr := key, claim := .held }
    let fromClient := v4Frame broadcast client 1 client 0x0A040715 0 0x0A040709
    (proxying.accept (onWire fromClient) true = .taken fromClient
      ∧ proxying.classify fromClient = .resolution (.v4 true 0x0A040715 0x0A040709)
      ∧ (proxying.slot 3).client = some (sourceLink fromClient) ∧ proxying.lookup key = some 5 ∧ proxying.binding 5 = some b)
    ∧ (proxying.accept (onWire (request 0)) true = .taken (request 0)
      ∧ proxying.classify (request 0) = .resolution (.v4 true 0 0x0A040715) ∧ (proxying.slot 3).state.defends = true)
    ∧ (∀ s ∈ [staged, scene (own .proxying) lost, dark], Claims (onWire reply) true s (.v4 false 0x0A040715 0x0A040709) .use 5
        { b with claim := (s.claim 5).getD .held })
    ∧ (staged.claim 5 = some .quiet ∧ (scene (own .proxying) lost).claim 5 = some .lost ∧ dark.claim 5 = some .held)
    ∧ Claims (onWire reply) true proxying (.v4 false 0x0A040715 0x0A040709) .use 5 b := by
  refine ⟨by decide, by decide, fun s hs => ?_, by decide,
    claims_reply _ _ (by decide) (by decide) (by decide) (by decide) (by decide)⟩
  simp only [List.mem_cons, List.not_mem_nil, or_false] at hs
  rcases hs with rfl | rfl | rfl <;> exact claims_reply _ _ (by decide) (by decide) (by decide) (by decide) (by decide)

theorem witness_MatchWakesOrCountsLate :
    let a := listed (scene (mirrored .proxying) held)
    let b := listed (scene { wakingSlot with mode := some .mirrored } held)
    (∀ s ∈ [a, b, scene (mirrored .dark) held, scene (mirrored .proxying) held],
      Settled s ∧ s.accept (onWire unicast) true = .taken unicast ∧ s.classify unicast = .unicast 3)
    ∧ (a.slot 3).patterns = [] ++ 2 :: [] ∧ (a.pattern 2).definition = some firstByte ∧ firstByte.hits unicast = true
    ∧ (b.slot 3).state = .waking ∧ (b.slot 3).patterns = [] ++ 2 :: [] ∧ (b.pattern 2).definition = some firstByte
    ∧ ((scene (mirrored .proxying) held).slot 3).patterns = [] ∧ ((scene (mirrored .dark) held).slot 3).state = .dark := by decide

theorem witness_ProbeTimerExpires :
    let s := fun k => scene (own .probing) (waitingProbe k)
    (∀ k ∈ [2, 3], Settled (s k) ∧ (s k).now < 1000
      ∧ Settled { s k with now := 1000 }
      ∧ (s k).binding 5 = some { owner := 3, addr := key, claim := .tentative, probesSent := k, probeDue := some 1000 })
    ∧ (Settled probing ∧ (probing.binding 5).map (·.probeDue) = some none)
    ∧ 2 < (s 2).settings.probeCount ∧ (s 3).settings.probeCount ≤ 3 ∧ (s 3).link = false
    ∧ ((s 3).slot 3).state = .probing ∧ ((s 3).slot 3).addresses = [5] := by decide

theorem witness_DeadlineAndPulseExpire :
    (Settled proxying ∧ proxying.binding 5 = some { owner := 3, addr := key, claim := .held } ∧ (proxying.slot 3).pulseDue = none)
    ∧ (Settled (defending (own .proxying)) ∧ (defending (own .proxying)).binding 5 = some defendedBinding)
    ∧ (defending (own .proxying)).now < 10000 ∧ Settled { defending (own .proxying) with now := 10000 }
    ∧ Settled waking ∧ (waking.slot 3).pulseDue = some 50 ∧ waking.now < 50 ∧ Settled { waking with now := 50 } := by decide

/-- With the attempts at the retries, and one above them. -/
theorem witness_WakeTimeoutExpires :
    let s := fun k => scene { wakingSlot with attempts := k } held
    (Settled proxying ∧ (proxying.slot 3).timeoutDue = none)
    ∧ (∀ k ∈ [2, 3], Settled (s k) ∧ (s k).now < 5000 ∧ Settled { s k with now := 5000 }
      ∧ ((s k).slot 3).timeoutDue = some 5000 ∧ ((s k).slot 3).state = .waking)
    ∧ ((s 2).slot 3).attempts < ((s 2).slot 3).wakeRetries + 1 ∧ ((s 3).slot 3).wakeRetries + 1 ≤ ((s 3).slot 3).attempts := by
  decide

theorem witness_TransmissionCompletes :
    (proxying.resetAsserted = false ∧ proxying.tx = none ∧ proxying.canTake = false)
    ∧ (sending (.duty .announce) proxying).tx = some { kind := .duty .announce, entry := 5, gen := 0, frame := [] }
    ∧ ((sending (.duty .probe) probing).binding 5 = some { owner := 3, addr := key, claim := .tentative, duty := some .probe }
      ∧ ((sending (.duty .probe) probing).entry 5).gen = 0 ∧ (sending (.duty .probe) probing).tx ≠ none)
    ∧ ((sending (.duty .probe) proxying).binding 5).map (·.claim) = some .held
    ∧ ((sending .answerV4 proxying).tx ≠ none ∧ ((sending .answerV4 proxying).entry 5).gen = 0)
    ∧ ((sending .answerV4 proxying).setEntry 5 { gen := 1, binding := none }).binding 5 = none := by decide

theorem witness_HandbackCompletes :
    let s := sending (.duty .handback) releasing
    let two := sending (.duty .handback) releasingTwo
    (s.resetAsserted = false ∧ s.tx = some { kind := .duty .handback, entry := 5, gen := 0, frame := [] }
      ∧ s.mailbox.state = .executing { slot := 3, set := [5] } ∧ (s.entry 5).gen = 0 ∧ (s.slot 3).outstanding = 1
      ∧ ReleaseLaw s ∧ RecordsLaw s)
    ∧ (two.mailbox.state = .executing { slot := 3, set := [5, 6] } ∧ 2 ≤ (two.slot 3).outstanding ∧ ReleaseLaw two)
    ∧ (sending (.duty .handback) staged).tx ≠ none ∧ ∀ r, (sending (.duty .handback) staged).mailbox.state ≠ .executing r :=
  ⟨⟨by decide, by decide, by decide, by decide, by decide, release_releasing, records_releasing⟩,
    ⟨by decide, by decide, release_releasingTwo⟩, by decide, fun _ h => MailboxState.noConfusion h⟩

theorem witness_HeadItemTaken :
    let s := { proxying with link := true, queue := [.duty .announce 5 0] }
    let t := { probing with link := true, queue := [.duty .announce 5 0] }
    (proxying.resetAsserted = false ∧ proxying.canTake = false)
    ∧ (s.tx = none ∧ s.link = true ∧ (∀ e, s.duty e = none) ∧ s.binding 5 = some { owner := 3, addr := key, claim := .held })
    ∧ (t.tx = none ∧ t.duty 5 = some .probe ∧ ∀ c, c < 5 → t.duty c = none) ∧ t.claim 5 = some .tentative := by decide

theorem witness_PendingDutyTakesPlace :
    (Settled proxying ∧ proxying.link = false) ∧ (∀ e, (sending .answerV4 proxying).duty e = none)
    ∧ 16 ≤ (List.replicate 16 (Item.duty .announce 5 0)).length
    ∧ let s := sending .answerV4 probing
      Settled s ∧ s.link = true ∧ s.queue.length < 16 ∧ s.tx ≠ none ∧ s.duty 5 = some .probe ∧ ∀ c, c < 5 → s.duty c = none := by
  decide

/-- A V4 and a V6 key whose bytes give 1Ch. -/
theorem witness_BucketOfKey :
    ((0x0A040715#32).extractLsb' 24 8 ^^^ (0x0A040715#32).extractLsb' 16 8 ^^^ (0x0A040715#32).extractLsb' 8 8
        ^^^ (0x0A040715#32).extractLsb' 0 8)
      = (List.range 16).foldl (fun x k => x ^^^ (0x1C#128).extractLsb' (8 * k) 8) 0#8 := by decide

theorem witness_PatternMatchesFrame : firstByte.length ≤ 32 ∧ { firstByte with length := 32 }.length ≤ 32 := by decide

/-- Each kind of item for an entry of each family, in each mode, tagged and not. -/
theorem witness_SentFramesReadBack :
    (0x20010DB8000000000000000000000021#128).toNat / 2 ^ 120 ≠ 0xFF
    ∧ (∀ s ∈ [proxying, scene (mirrored .proxying) held], ∀ item ∈ [Item.duty .probe 5 0, .duty .handback 5 0, .answerV4 5 0 other 0,
        .answerV6 5 0 other none false], s.binding item.entry = some { owner := 3, addr := key, claim := .held }
      ∧ (s.slot 3).client = some client ∧ (s.slot 3).mode ≠ none)
    ∧ (proxying.slot 3).mode = some .own ∧ proxying.settings.segment = 0
    ∧ ((scene (mirrored .proxying) held).modBinding 5 fun b => { b with addr := .v6 1 }).binding 5
      = some { owner := 3, addr := .v6 1, claim := .held }
    ∧ ((scene (mirrored .proxying) held).slot 3).mode = some .mirrored := by decide

/-- An answer whose entry has changed family keeps every field but the address that must fit (R107, R203, R208; log 17). -/
theorem test_answer_changed_family :
    V4Fields (answerV4Frame station other 0x0A040709 (.v6 1)) other station 2 station (Config.fitV4 1) other 0x0A040709
    ∧ V6Fields (answerV6Frame station other none false key) allNodesLink station (Config.fitV6 0x0A040715) allNodes 136 0x20
        (Config.fitV6 0x0A040715) (some station) :=
  ⟨v4Frame_fields _ _ _ _ _ _ _ (by decide), v6Frame_fields ..⟩

/-- An answer to a multicast peer goes to the link address that its request came from (R108; log 18). -/
theorem test_answer_multicast_peer :
    destLink (answerV6Frame station other (some 0xFF020000000000000000000000000002#128) true (.v6 1)) = other := by decide

/-- The segment tag stands after the source link address (R208). -/
theorem test_insertTag :
    (insertTag 5 stray).take 16 = stray.take 12 ++ [0x81, 0x00, 0x00, 0x05] ∧ (insertTag 5 stray).drop 16 = stray.drop 12
      ∧ insertTag 0 stray = stray := by decide

/-! #### The laws in a state with a command waiting: the transmitter sending, slot 3 PROXYING with pattern 2 and entry 5 HELD -/

def busy : State := { listed (sending .answerV4 proxying) with pending := [.wake 3] }

theorem busy_steps : ∃ t, step busy = .next t := by
  have h : yields (step busy) (fun _ => true) = true := by decide
  cases hs : step busy with
  | next t => exact ⟨t, rfl⟩
  | fault r => rw [hs] at h; cases h
  | refused r => rw [hs] at h; cases h

theorem witness_QueueLawsKept : TakeLaw busy ∧ QueueLaw busy ∧ ∃ t, step busy = .next t := ⟨by decide, by decide, busy_steps⟩

theorem witness_ReleaseLawKept :
    let s := { releasing with pending := [.abort] }
    ReleaseLaw s ∧ ∃ t, step s = .next t := by
  refine ⟨release_releasing, ?_⟩
  have h : yields (step { releasing with pending := [.abort] }) (fun _ => true) = true := by decide
  cases hs : step { releasing with pending := [.abort] } with
  | next t => exact ⟨t, rfl⟩
  | fault r => rw [hs] at h; cases h
  | refused r => rw [hs] at h; cases h

theorem witness_WakeAndRangeLawsKept :
    WakeLaws busy ∧ WakeLaws waking ∧ SettingsLaw busy ∧ PolicyLaws busy ∧ AttentionLaw busy ∧ ∃ t, step busy = .next t :=
  ⟨by decide, by decide, by decide, by decide, by decide, busy_steps⟩

theorem witness_PatternLawKept : PatternLaw busy ∧ ∃ t, step busy = .next t := by
  have hd : ∀ p, (busy.pattern p).definition = if p = 2 then some firstByte else none := by decide
  refine ⟨⟨by decide, by decide, by decide, fun p d h => ?_⟩, busy_steps⟩
  rw [hd] at h
  split at h
  · cases h
    exact ⟨by decide, by decide, by decide, 0, by decide, by decide⟩
  · cases h

theorem records_busy : RecordsLaw busy :=
  records_of_one _ { owner := 3, addr := key, claim := .held } (by decide) rfl (by decide) (by decide) (by decide) (by decide)
    (by decide)

theorem witness_RecordsLawKept : RecordsLaw busy ∧ ∃ t, step busy = .next t := ⟨records_busy, busy_steps⟩

theorem claim_busy : ClaimLaw busy := by
  have hb : ∀ e, busy.binding e = if e = 5 then some { owner := 3, addr := key, claim := .held } else none := by decide
  refine ⟨fun e b h => ?_, by decide⟩
  rw [hb] at h
  split at h
  · cases h
    exact ⟨by decide, by decide, by decide, by decide, by decide, by decide⟩
  · cases h

theorem witness_ClaimLawKept : RecordsLaw busy ∧ SettingsLaw busy ∧ ClaimLaw busy ∧ ∃ t, step busy = .next t :=
  ⟨records_busy, by decide, claim_busy, busy_steps⟩

theorem host_busy : HostLaw busy := by
  have hc : ∀ n, (busy.slot n).client = if n = 3 then some client else none := by decide
  refine ⟨by decide, fun n a h => ?_, fun n m a h g => ?_, by decide, by decide⟩
  · rw [hc] at h
    split at h
    · cases h
      decide
    · cases h
  · rw [hc] at h g
    split at h
    · split at g
      · rename_i hn hm
        rw [hn, hm]
      · cases g
    · cases h

theorem witness_HostLawKept : RecordsLaw busy ∧ ClaimLaw busy ∧ HostLaw busy ∧ ∃ t, step busy = .next t :=
  ⟨records_busy, claim_busy, host_busy, busy_steps⟩

end Sys2Proof.Tests
end

/-! ## What a step can do

A step is a chain of acts on the records (`Act`), and each law is kept by each act. The acts are the shared operations of the model with the
conditions under which the meanings use them; what touches no record that a law reads is the one act `Moved`. -/

namespace Sys2Proof.Machine

/-! ### The release in progress -/

/-- The release with announcement that is in progress (R51). -/
def State.running (s : State) : Option Release :=
  match s.mailbox.state with
  | .executing r => some r
  | .idle => none
  | .complete => none

theorem running_eq_some {s : State} {r : Release} : s.running = some r ↔ s.mailbox.state = .executing r := by
  unfold State.running
  cases s.mailbox.state <;> simp

theorem running_of_executing {s : State} {r : Release} (h : s.mailbox.state = .executing r) : s.running = some r :=
  running_eq_some.mpr h

theorem running_of_idle {s : State} (h : s.mailbox.state = .idle) : s.running = none := by simp [State.running, h]

theorem running_of_complete {s : State} (h : s.mailbox.state = .complete) : s.running = none := by simp [State.running, h]

theorem running_congr {s t : State} (h : t.mailbox = s.mailbox) : t.running = s.running := by simp [State.running, h]

/-! ### What no law reads -/

/-- `t` is `s` in every record that the laws read, but that pending duties may have become queue items (R100, R101). -/
structure Moved (s t : State) : Prop where
  slot : ∀ n, t.slot n = s.slot n
  bucket : ∀ k, t.bucket k = s.bucket k
  pattern : ∀ p, t.pattern p = s.pattern p
  settings : t.settings = s.settings
  deviceAttention : t.deviceAttention = s.deviceAttention
  running : t.running = s.running
  binding : ∀ e, t.binding e = s.binding e ∨ t.binding e = (s.binding e).map fun b => { b with duty := none }

namespace Moved

variable {s t : State}

/-- An update of none of these records. -/
theorem of_same (slots : t.slots = s.slots) (entries : t.entries = s.entries) (index : t.index = s.index)
    (patterns : t.patterns = s.patterns) (settings : t.settings = s.settings)
    (deviceAttention : t.deviceAttention = s.deviceAttention) (running : t.running = s.running) : Moved s t where
  slot n := by simp [State.slot, slots]
  bucket k := by simp [State.bucket, index]
  pattern p := by simp [State.pattern, patterns]
  settings := settings
  deviceAttention := deviceAttention
  running := running
  binding e := .inl (by simp [State.binding, State.entry, entries])

theorem of_queueMoved (h : QueueMoved s t) : Moved s t where
  slot := h.slot
  bucket := h.bucket
  pattern := h.pattern
  settings := h.settings
  deviceAttention := h.deviceAttention
  running := running_congr h.mailbox
  binding := h.binding

/-- The same change of a slot record on both sides. -/
theorem modSlot (h : Moved s t) (n : Fin 16) (f : Slot → Slot) : Moved (s.modSlot n f) (t.modSlot n f) where
  slot m := by simp [h.slot]
  bucket := h.bucket
  pattern := h.pattern
  settings := h.settings
  deviceAttention := h.deviceAttention
  running := h.running
  binding := h.binding

theorem claim (h : Moved s t) (e : Fin 96) : t.claim e = s.claim e := by
  rcases h.binding e with h | h <;> simp [State.claim, h, Option.map_map, Function.comp_def]

end Moved

/-! ### One slot at work -/

/-- The record of a PROBING slot at the end-of-probing examination: whether an entry is TENTATIVE, and whether one is held (R35 to R37). -/
def Slot.endProbing (tentative held : Bool) (x : Slot) : Slot :=
  if x.state = .probing ∧ tentative = false then
    if held then { x with state := .proxying }.raise .active else { x with state := .staged }.raise .armFailed
  else x

/-- An entry that owes its next probe (R59). -/
def Binding.probeAgain (b : Binding) : Binding := { b with probeDue := none, duty := some .probe }

/-- An entry at a first claim of use: DEFENDED up to `due` (R64). -/
def Binding.defend (due : Nat) (b : Binding) : Binding :=
  { b with claim := .defended, defenceDue := some due, duty := some .defend }

/-- The record of a slot against whose entry a claim has been counted, with the kind `k` raised (R63 to R65). -/
def Slot.claimed (k : SlotKind) (x : Slot) : Slot := (x.raise k).count SlotCounters.countClaim

/-- The conditions under which a slot leaves STAGED with its entries (R182). -/
def State.canArm (s : State) (n : Fin 16) : Prop :=
  (s.slot n).addresses ≠ [] ∧ ((s.slot n).mode = some .own → s.settings.station ≠ 0)

/-- The slot controller and the claim engine at work for slot `n`: the bindings of the entries `es` change by `g`, the slot's record
by `f`. -/
inductive SlotWork (s : State) (n : Fin 16) : List (Fin 96) → (Binding → Binding) → (Slot → Slot) → Prop where
  | counted (c : SlotCounters → SlotCounters) : SlotWork s n [] id (Slot.count c)
  | attentionRead : SlotWork s n [] id fun x => { x with attention := 0 }
  | policySet (l : LossPolicy) (a : Bool) (pulse timeout retries : Nat) (staged : (s.slot n).state = .staged)
      (range : policyInRange pulse timeout retries = true) (byte : pulse ≤ 255) :
      SlotWork s n [] id fun x => { x with
        loss := l, autoRearm := a, pulseWidth := pulse, wakeTimeout := timeout, wakeRetries := retries }
  | armed (staged : (s.slot n).state = .staged) (can : s.canArm n) : SlotWork s n [] id fun x => { x with state := .armed }
  | probing (still : (s.slot n).state = .armed ∨ ((s.slot n).state = .staged ∧ s.canArm n)) :
      SlotWork s n (s.slot n).addresses Binding.startProbing fun x => { x with state := .probing }
  | disarmed (armed : (s.slot n).state = .armed) : SlotWork s n [] id fun x => { x with state := .staged }
  | probingStopped (probing : (s.slot n).state = .probing) :
      SlotWork s n (s.slot n).addresses Binding.disarm fun x => { x with state := .staged }
  | wakeBegun (c : WakeCause) (sleeping : (s.slot n).state = .proxying ∨ (s.slot n).state = .dark) :
      SlotWork s n [] id fun x =>
        Slot.beginAttempt s.now true { x with state := .waking, cause := some c, attempts := 1 }
  | attempted (waking : (s.slot n).state = .waking) (left : (s.slot n).attempts < (s.slot n).wakeRetries + 1) :
      SlotWork s n [] id fun x => Slot.beginAttempt s.now false { x with attempts := x.attempts + 1 }
  | darkened (waking : (s.slot n).state = .waking) :
      SlotWork s n (s.slot n).addresses Binding.endDefence fun x => { x.endWake with state := .dark }.raise .wakeFailed
  | pulseEnded : SlotWork s n [] id fun x => { x with wakeLine := false, pulseDue := none }
  | handedBack (standsIn : (s.slot n).state.standsIn = true) :
      SlotWork s n (s.slot n).addresses (Binding.handBack (s.slot n).mode) fun x =>
        { x.endWake with state := if x.autoRearm then .armed else .staged }.raise .handback
  | tentativeLost (e : Fin 96) (b : Binding) (bound : s.binding e = some b) (owner : b.owner = n) (claim : b.claim = .tentative) :
      SlotWork s n [e] Binding.lose fun x => Slot.endProbing ((s.modBindings [e] Binding.lose).slotTentative n)
        ((s.modBindings [e] Binding.lose).slotHeld n) (x.claimed .conflict)
  | heldDefended (e : Fin 96) (b : Binding) (due : Nat) (bound : s.binding e = some b) (owner : b.owner = n) (claim : b.claim = .held)
      (defends : (s.slot n).state.defends = true) : SlotWork s n [e] (Binding.defend due) (Slot.claimed .defended)
  | defendedLost (e : Fin 96) (b : Binding) (bound : s.binding e = some b) (owner : b.owner = n) (claim : b.claim = .defended)
      (defends : (s.slot n).state.defends = true) : SlotWork s n [e] Binding.lose (Slot.claimed .conflict)
  | probeSent (e : Fin 96) (b : Binding) (due : Nat) (bound : s.binding e = some b) (owner : b.owner = n)
      (claim : b.claim = .tentative) (stopped : b.probeDue = none) : SlotWork s n [e] (Binding.probeSent due) id
  | probeOwed (e : Fin 96) (b : Binding) (bound : s.binding e = some b) (owner : b.owner = n) (claim : b.claim = .tentative)
      (left : b.probesSent < s.settings.probeCount) : SlotWork s n [e] Binding.probeAgain id
  | finalWaitEnded (e : Fin 96) (b : Binding) (bound : s.binding e = some b) (owner : b.owner = n) (claim : b.claim = .tentative)
      (runs : b.probeDue ≠ none) :
      SlotWork s n [e] (Binding.endFinalWait (s.slot n).mode) (Slot.endProbing
        ((s.modBindings [e] (Binding.endFinalWait (s.slot n).mode)).slotTentative n)
        ((s.modBindings [e] (Binding.endFinalWait (s.slot n).mode)).slotHeld n))
  | defenceEnded (e : Fin 96) (b : Binding) (bound : s.binding e = some b) (owner : b.owner = n) (claim : b.claim = .defended) :
      SlotWork s n [e] Binding.endDefence id

/-! ### The acts -/

/-- `t` holds no slot, entry, way, pattern or attention; its settings are those of `s` or the power-on values (R2, R24, R25, R175). -/
structure Blank (s t : State) : Prop where
  slot : ∀ n, t.slot n = {}
  binding : ∀ e, t.binding e = none
  way : ∀ k w e, ¬ t.wayHolds k w e
  pattern : ∀ p, t.pattern p = {}
  settings : t.settings = s.settings ∨ t.settings = {}
  deviceAttention : t.deviceAttention = 0
  running : t.running = none

/-- The slot enters RELEASING: the records before the handbacks are offered (R51, R186). -/
def State.startRelease (s : State) (n : Fin 16) : State :=
  let held := (s.slot n).addresses.filter s.isHeld
  let u := (s.modBindings (s.slot n).addresses Binding.release).modSlot n fun x =>
    { x.endWake with state := .releasing, outstanding := held.length }
  { u with mailbox := { u.mailbox with state := .executing { slot := n, set := held } } }

/-- One act of a step on the records. -/
inductive Act (s : State) : State → Prop where
  | moved {t : State} (h : Moved s t) : Act s t
  | slotWork {n : Fin 16} {es : List (Fin 96)} {g : Binding → Binding} {f : Slot → Slot} (h : SlotWork s n es g f) :
      Act s ((s.modBindings es g).modSlot n f)
  | deviceRaised (k : DeviceKind) : Act s (s.raiseDevice k)
  | deviceRead : Act s { s with deviceAttention := 0 }
  | stationSet (a : LinkAddr) (group : isGroup a = false) (unused : ∀ n, (s.slot n).usesStation = false)
      (armed : a = 0 → ∀ n, ((s.slot n).isOwn && (s.slot n).state == .armed) = false)
      (apart : a ≠ 0 → ∀ n, (s.slot n).client ≠ some a) : Act s { s with settings := { s.settings with station := a } }
  | segmentSet (tag : BitVec 16) (range : tag.toNat < 4095) :
      Act s { s with settings := { s.settings with segment := tag.setWidth 12 } }
  | timingSet (count interval window : Nat) (range : timingInRange count interval window = true)
      (still : ∀ n, (s.slot n).state ≠ .probing) :
      Act s { s.modBindings (List.finRange 96) (Binding.trimProbes count) with
        settings := { s.settings with probeCount := count, probeInterval := interval, defenceWindow := window } }
  | masksSet (slotMask deviceMask : Byte) (on : Bool) (slot : slotMask &&& ~~~slotKindPlaces = 0)
      (device : deviceMask &&& ~~~deviceKindPlaces = 0) :
      Act s { s with
        settings := { s.settings with slotMask := slotMask, deviceMask := deviceMask, completionEnable := on } }
  | slotOpened (n : Fin 16) (client : LinkAddr) (m : AnswerMode) (nonzero : client ≠ 0) (group : isGroup client = false)
      (vacant : (s.slot n).state = .vacant) (apart : ∀ k, (s.slot k).client ≠ some client)
      (station : s.settings.station ≠ 0 → client ≠ s.settings.station) :
      Act s (s.modSlot n fun x => { x with
        state := .staged, client := some client, mode := some m
        loss := .notify, autoRearm := false, pulseWidth := Config.vacantPulseWidth
        wakeTimeout := Config.vacantWakeTimeout, wakeRetries := Config.vacantWakeRetries, counters := {} })
  | inserted (n : Fin 16) (a : Addr) (e : Fin 96) (w : Fin 4) (usable : a.usable = true) (staged : (s.slot n).state = .staged)
      (room : (s.slot n).addresses.length < 8) (free : s.binding e = none) (unknown : s.lookup a = none)
      (empty : (s.bucket (bucketOf a))[w] = none) : Act s (s.insert n a e w)
  | removed (e : Fin 96) (b : Binding) (bound : s.binding e = some b) (staged : (s.slot b.owner).state = .staged)
      (idle : s.running = none) : Act s (s.freeEntries [e])
  | attached (n : Fin 16) (p : Fin 32) (staged : (s.slot n).state = .staged) (apart : p ∉ (s.slot n).patterns)
      (defined : (s.pattern p).definition ≠ none) (room : (s.slot n).patterns.length < 4) :
      Act s ((s.setPattern p { s.pattern p with refs := (s.pattern p).refs + 1 }).modSlot n fun x =>
        { x with patterns := x.patterns ++ [p] })
  | detached (n : Fin 16) (p : Fin 32) (staged : (s.slot n).state = .staged) (listed : p ∈ (s.slot n).patterns) :
      Act s ((s.setPattern p { s.pattern p with refs := (s.pattern p).refs - 1 }).modSlot n fun x =>
        { x with patterns := x.patterns.erase p })
  | patternWritten (p : Fin 32) (offset length : Nat) (mask : BitVec 32) (value : Vector Byte 32) (unused : (s.pattern p).refs = 0)
      (range : patternInRange offset length mask = true) :
      Act s (s.setPattern p { s.pattern p with definition := some (storedDef offset length mask value) })
  | patternCleared (p : Fin 32) (unused : (s.pattern p).refs = 0) :
      Act s (s.setPattern p { s.pattern p with definition := none })
  | vacated (n : Fin 16) (idle : s.running = none) : Act s (s.becomeVacant n)
  | releaseStarted (n : Fin 16) (idle : s.running = none) (own : (s.slot n).mode = some .own) (held : s.slotHeld n = true) :
      Act s (s.startRelease n)
  | handbacksLeft (discard : Bool) (es : List (Fin 96)) : Act s (es.foldl (State.leaveSet discard) s).endReleaseIfDone
  | releaseAborted (r : Release) (running : s.running = some r) : Act s (s.finishRelease r.slot .aborted)
  | linkLost : Act s (s.modBindings (List.finRange 96) Binding.linkLoss)
  | blanked {t : State} (h : Blank s t) : Act s t

/-- Acts one after another. -/
def Acts (s t : State) : Prop := Relation.ReflTransGen Act s t

theorem Acts.refl {s : State} : Acts s s := Relation.ReflTransGen.refl

theorem Acts.trans {s t u : State} (h : Acts s t) (k : Acts t u) : Acts s u := Relation.ReflTransGen.trans h k

theorem Acts.one {s t : State} (h : Act s t) : Acts s t := Relation.ReflTransGen.single h

/-- What every act keeps, a chain of acts keeps. -/
theorem Acts.keep {P : State → Prop} (step : ∀ s t, P s → Act s t → P t) {s t : State} (h : Acts s t) (hs : P s) : P t := by
  induction h with
  | refl => exact hs
  | tail _ a ih => exact step _ _ ih a

theorem Acts.moved {s t : State} (h : Moved s t) : Acts s t := .one (.moved h)

theorem Acts.queue {s t : State} (h : QueueMoved s t) : Acts s t := .moved (.of_queueMoved h)

/-- An update of nothing that a law reads. -/
theorem Acts.same {s t : State} (slots : t.slots = s.slots) (entries : t.entries = s.entries) (index : t.index = s.index)
    (patterns : t.patterns = s.patterns) (settings : t.settings = s.settings)
    (deviceAttention : t.deviceAttention = s.deviceAttention) (running : t.running = s.running) : Acts s t :=
  .moved (.of_same slots entries index patterns settings deviceAttention running)

end Sys2Proof.Machine

namespace Sys2Proof.Machine

/-! ### The same update in another form -/

theorem modSlot_self {s : State} {n : Fin 16} {f : Slot → Slot} (h : f (s.slot n) = s.slot n) : s.modSlot n f = s := by
  have hs : (s.modSlot n f).slots = s.slots := by
    refine Vector.ext fun i hi => ?_
    have := slot_modSlot s n ⟨i, hi⟩ f
    split at this
    · next q => subst q; exact this.trans h
    · exact this
  unfold State.modSlot State.setSlot at hs ⊢
  simp only at hs
  rw [hs]

theorem modBindings_nil (s : State) (g : Binding → Binding) : s.modBindings [] g = s := by
  have hs : (s.modBindings [] g).entries = s.entries :=
    Vector.ext fun i hi => (entry_modBindings s [] ⟨i, hi⟩ g).trans (if_neg List.not_mem_nil)
  unfold State.modBindings at hs ⊢
  simp only at hs
  rw [hs]

theorem modBinding_eq (s : State) (e : Fin 96) (g : Binding → Binding) : s.modBinding e g = s.modBindings [e] g := by
  have hs : (s.modBinding e g).entries = (s.modBindings [e] g).entries := by
    refine Vector.ext fun i hi => ?_
    have h1 := entry_modBinding s e ⟨i, hi⟩ g
    have h2 := entry_modBindings s [e] ⟨i, hi⟩ g
    simp only [List.mem_singleton, eq_comm (b := e)] at h2
    exact h1.trans h2.symm
  unfold State.modBinding State.modBindings State.setEntry at hs ⊢
  simp only at hs
  rw [hs]

theorem endOfProbing_eq (s : State) (n : Fin 16) :
    s.endOfProbing n = s.modSlot n (Slot.endProbing (s.slotTentative n) (s.slotHeld n)) := by
  unfold State.endOfProbing
  split
  · next h =>
    split <;> simp_all [State.modSlot, Slot.endProbing]
  · next h => rw [modSlot_self (by rw [Slot.endProbing, if_neg h])]

theorem modSlot_modSlot (s : State) (n : Fin 16) (f g : Slot → Slot) :
    (s.modSlot n f).modSlot n g = s.modSlot n fun x => g (f x) := by
  have h : (s.modSlot n f).slot n = f (s.slot n) := by simp
  unfold State.modSlot State.setSlot at h ⊢
  simp only [Vector.set_set, h]

/-- What the examination reads does not change with the queue, or with the other fields of the slot's record. -/
theorem slotTentative_congr {s t : State} {n : Fin 16} (ha : (t.slot n).addresses = (s.slot n).addresses)
    (hc : ∀ e, t.claim e = s.claim e) : t.slotTentative n = s.slotTentative n := by
  simp [State.slotTentative, ha, hc]

theorem slotHeld_congr {s t : State} {n : Fin 16} (ha : (t.slot n).addresses = (s.slot n).addresses)
    (hc : ∀ e, t.claim e = s.claim e) : t.slotHeld n = s.slotHeld n := by
  have h : t.isHeld = s.isHeld := by funext e; simp [State.isHeld, hc]
  simp [State.slotHeld, ha, h]

theorem Moved.endOfProbing {s t : State} (h : Moved s t) (n : Fin 16) : Moved (s.endOfProbing n) (t.endOfProbing n) := by
  have ha : (t.slot n).addresses = (s.slot n).addresses := by rw [h.slot]
  rw [endOfProbing_eq, endOfProbing_eq, slotTentative_congr ha h.claim, slotHeld_congr ha h.claim]
  exact h.modSlot n _

/-! ### The acts of one slot -/

/-- Work on the slot's record alone. -/
theorem Acts.slotOnly {s : State} {n : Fin 16} {f : Slot → Slot} (h : SlotWork s n [] id f) : Acts s (s.modSlot n f) := by
  have := Acts.one (.slotWork h)
  rwa [modBindings_nil] at this

/-- Work on one binding alone. -/
theorem Acts.bindingOnly {s : State} {n : Fin 16} {e : Fin 96} {g : Binding → Binding} (h : SlotWork s n [e] g id) :
    Acts s (s.modBinding e g) := by
  have := Acts.one (.slotWork h)
  rwa [modSlot_self rfl, ← modBinding_eq] at this

/-- Work on one binding and the slot's record. -/
theorem Acts.bindingAndSlot {s : State} {n : Fin 16} {e : Fin 96} {g : Binding → Binding} {f : Slot → Slot}
    (h : SlotWork s n [e] g f) : Acts s ((s.modBinding e g).modSlot n f) := by
  rw [modBinding_eq]
  exact .one (.slotWork h)

theorem startWake_acts (s : State) (n : Fin 16) (c : WakeCause)
    (h : (s.slot n).state = .proxying ∨ (s.slot n).state = .dark) : Acts s (s.startWake n c) :=
  .slotOnly (.wakeBegun c h)

theorem wakeTrigger_acts (s : State) (n : Fin 16) (c : WakeCause) : Acts s (s.wakeTrigger n c) := by
  unfold State.wakeTrigger
  split
  · next h => exact startWake_acts s n c (.inl h)
  · exact .refl

theorem probingStart_acts (s : State) (n : Fin 16)
    (h : (s.slot n).state = .armed ∨ ((s.slot n).state = .staged ∧ s.canArm n)) : Acts s (s.probingStart n) :=
  (Acts.one (.slotWork (.probing h))).trans (.queue (offerDuties_moved _ _))

theorem handback_acts (s : State) (n : Fin 16) (h : (s.slot n).state.standsIn = true) : Acts s (s.handback n) :=
  (Acts.one (.slotWork (.handedBack h))).trans (.queue (offerDuties_moved _ _))

theorem takeLevel_acts (s : State) (n : Fin 16) (v : Bool) : Acts s (s.takeLevel n v) :=
  .same rfl rfl rfl rfl rfl rfl rfl

theorem awakeRise_acts (n : Fin 16) (s : State) : Acts s (awakeRise n s) := by
  unfold awakeRise
  refine (takeLevel_acts s n true).trans ?_
  dsimp only
  split
  · next h => exact handback_acts _ n h
  · exact .refl

theorem awakeFall_acts (n : Fin 16) (s : State) : Acts s (awakeFall n s) := by
  unfold awakeFall
  refine (takeLevel_acts s n false).trans ?_
  dsimp only
  split
  · next h => exact probingStart_acts _ n (.inl h)
  · exact .refl

/-! ### The acts of the claim engine and the wake timers -/

theorem loseEntry_eq (s : State) (e : Fin 96) (n : Fin 16) :
    s.loseEntry e n = (s.modBindings [e] Binding.lose).modSlot n (Slot.claimed .conflict) := by
  unfold State.loseEntry State.countSlot State.raiseSlot
  rw [modSlot_modSlot, modBinding_eq]
  rfl

theorem claimTentative_acts (s : State) (e : Fin 96) (b : Binding) (hb : s.binding e = some b) (hc : b.claim = .tentative) :
    Acts s (s.claimTentative e b.owner) := by
  have h := Acts.one (.slotWork (.tentativeLost e b hb rfl hc))
  unfold State.claimTentative
  rw [loseEntry_eq, endOfProbing_eq, modSlot_modSlot]
  rw [slotTentative_congr (s := s.modBindings [e] Binding.lose), slotHeld_congr (s := s.modBindings [e] Binding.lose)]
  · exact h
  all_goals simp [Slot.claimed, Slot.raise, Slot.count]

theorem firstClaim_acts (s : State) (e : Fin 96) (b : Binding) (hb : s.binding e = some b) (hc : b.claim = .held)
    (hd : (s.slot b.owner).state.defends = true) : Acts s (s.firstClaim e b.owner) := by
  have work := Acts.bindingAndSlot (.heldDefended e b (s.now + 1000 * s.settings.defenceWindow) hb rfl hc hd)
  refine work.trans (.moved ?_)
  unfold State.firstClaim State.countSlot State.raiseSlot
  rw [modSlot_modSlot]
  exact (Moved.of_queueMoved (offerDuty_moved _ e)).modSlot _ _

theorem secondClaim_acts (s : State) (e : Fin 96) (b : Binding) (hb : s.binding e = some b) (hc : b.claim = .defended)
    (hd : (s.slot b.owner).state.defends = true) : Acts s (s.secondClaim e b.owner) := by
  have work := Acts.one (.slotWork (.defendedLost e b hb rfl hc hd))
  rw [← loseEntry_eq] at work
  unfold State.secondClaim
  dsimp only
  split
  · exact work.trans (wakeTrigger_acts _ _ _)
  · exact work

theorem probeExpired_acts (s : State) (e : Fin 96) (b : Binding) (hb : s.binding e = some b) (hc : b.claim = .tentative)
    (hr : b.probeDue ≠ none) : Acts s (s.probeExpired e) := by
  unfold State.probeExpired
  rw [hb]
  dsimp only
  split
  · next h => exact (Acts.bindingOnly (.probeOwed e b hb rfl hc h)).trans (.queue (offerDuty_moved _ e))
  · have work := Acts.one (.slotWork (.finalWaitEnded e b hb rfl hc hr))
    rw [← endOfProbing_eq, ← modBinding_eq] at work
    exact work.trans (.moved ((Moved.of_queueMoved (offerDuty_moved _ e)).endOfProbing _))

theorem defenceEnded_acts (s : State) (e : Fin 96) (b : Binding) (hb : s.binding e = some b) (hc : b.claim = .defended) :
    Acts s (s.defenceEnded e) :=
  .bindingOnly (.defenceEnded e b hb rfl hc)

theorem pulseExpired_acts (s : State) (n : Fin 16) : Acts s (s.pulseExpired n) := .slotOnly .pulseEnded

theorem timeoutExpired_acts (s : State) (n : Fin 16) (h : (s.slot n).state = .waking) : Acts s (s.timeoutExpired n) := by
  unfold State.timeoutExpired
  split
  · next hl => exact .slotOnly (.attempted h hl)
  · exact .one (.slotWork (.darkened h))

/-! ### Expiries and the counts of the time base -/

/-- Each of the four timers, while it runs, lets its expiry act. -/
def TimerActs (timer : State → Option Nat) (act : State → State) : Prop :=
  ∀ s d, timer s = some d → Acts s (act s)

theorem probeTimer_acts (e : Fin 96) : TimerActs (State.probeTimer e) (State.probeExpired e) := by
  intro s d h
  obtain ⟨b, hb, h⟩ := Option.bind_eq_some_iff.mp h
  split at h
  · next hc => exact probeExpired_acts s e b hb hc (by simp [h])
  · cases h

theorem defenceDeadline_acts (e : Fin 96) : TimerActs (State.defenceDeadline e) (State.defenceEnded e) := by
  intro s d h
  obtain ⟨b, hb, h⟩ := Option.bind_eq_some_iff.mp h
  split at h
  · next hc => exact defenceEnded_acts s e b hb hc
  · cases h

theorem pulseTimer_acts (n : Fin 16) : TimerActs (State.pulseTimer n) (State.pulseExpired n) :=
  fun s _ _ => pulseExpired_acts s n

theorem timeoutTimer_acts (n : Fin 16) : TimerActs (State.timeoutTimer n) (State.timeoutExpired n) := by
  intro s d h
  unfold State.timeoutTimer at h
  split at h
  · next hw => exact timeoutExpired_acts s n hw
  · cases h

theorem expire_acts {timer : State → Option Nat} {act : State → State} (h : TimerActs timer act) (s : State) :
    Acts s (expire timer act s) := by
  unfold expire
  split
  · exact .refl
  · next d hd =>
    split
    · exact h s d hd
    · exact .refl

theorem takeDue_acts (s : State) (i : Instr) : Acts s (s.takeDue i) := by
  refine .trans ?_ (.queue (serve_moved _))
  unfold dueAction
  split
  · exact awakeRise_acts _ s
  · exact awakeFall_acts _ s
  · exact expire_acts (pulseTimer_acts _) s
  · exact expire_acts (timeoutTimer_acts _) s
  · exact expire_acts (probeTimer_acts _) s
  · exact expire_acts (defenceDeadline_acts _) s
  · exact .refl

theorem passCounts_acts (s : State) (k : Nat) : Acts s (s.passCounts k) := .same rfl rfl rfl rfl rfl rfl rfl

theorem oneCount_acts (s : State) : Acts s s.oneCount := by
  have fold : ∀ (es : List Instr) (u : State), Acts u (es.foldl State.takeDue u) := by
    intro es
    induction es with
    | nil => exact fun _ => .refl
    | cons i es ih => exact fun u => (takeDue_acts u i).trans (ih _)
  exact (passCounts_acts s 1).trans (fold _ _)

theorem skipQuiet_acts (s : State) (d : Nat) : Acts s (s.skipQuiet d) := by
  unfold State.skipQuiet
  split
  · exact .refl
  · exact passCounts_acts s _

theorem advanceWithin_acts (k d : Nat) (s : State) : Acts s (advanceWithin k d s) := by
  induction k generalizing s with
  | zero => exact .refl
  | succ k ih =>
    unfold advanceWithin
    split
    · exact .refl
    · exact ((skipQuiet_acts s d).trans (oneCount_acts _)).trans (ih _)

theorem expiry_acts {timer : State → Option Nat} {act : State → State} (h : TimerActs timer act) (s : State) :
    Acts s (expiry timer act s) := by
  unfold expiry
  split
  · exact .refl
  · next d hd =>
    split
    · exact h s d hd
    · exact advanceWithin_acts _ _ s

/-! ### The acts of a frame -/

theorem count_acts (s : State) (f : DeviceCounters → DeviceCounters) : Acts s (s.count f) :=
  .same rfl rfl rfl rfl rfl rfl rfl

theorem raiseDevice_acts (s : State) (k : DeviceKind) : Acts s (s.raiseDevice k) := .one (.deviceRaised k)

theorem countSlot_acts (s : State) (n : Fin 16) (c : SlotCounters → SlotCounters) : Acts s (s.countSlot n c) :=
  .slotOnly (.counted c)

theorem applyEvidence_acts (s : State) (e : Fin 96) (b : Binding) (form : ClaimForm) (hb : s.binding e = some b) :
    Acts s (s.applyEvidence e b form).1 := by
  unfold State.applyEvidence
  cases hc : b.claim with
  | quiet => exact .refl
  | lost => exact .refl
  | tentative => exact claimTentative_acts s e b hb hc
  | held =>
    by_cases hd : (s.slot b.owner).state.defends = true
    · cases form
      · simpa [hd] using firstClaim_acts s e b hb hc hd
      · simpa [hd] using Acts.refl
    · simpa [hd] using Acts.refl
  | defended =>
    by_cases hd : (s.slot b.owner).state.defends = true
    · cases form
      · simpa [hd] using secondClaim_acts s e b hb hc hd
      · simpa [hd] using Acts.refl
    · simpa [hd] using Acts.refl

theorem claimStep_acts (s : State) (source : LinkAddr) (r : ResFrame) : Acts s (s.claimStep source r).1 := by
  unfold State.claimStep
  split
  · exact .refl
  · split
    · exact .refl
    · split
      · exact .refl
      · next hb =>
        split
        · exact applyEvidence_acts s _ _ _ hb
        · exact .refl

theorem offerAnswer_acts (s : State) (i : Item) : Acts s (s.offerAnswer i) := by
  unfold State.offerAnswer
  split
  · exact .same rfl rfl rfl rfl rfl rfl rfl
  · exact (count_acts s _).trans (raiseDevice_acts _ _)

theorem answerStep_acts (s : State) (source : LinkAddr) (r : ResFrame) (evidence : Option (Fin 96)) :
    Acts s (s.answerStep source r evidence) := by
  unfold State.answerStep
  split
  · exact .refl
  · split
    · exact offerAnswer_acts s _
    · exact .refl

theorem matchFrame_acts (s : State) (n : Fin 16) (f : List Byte) : Acts s (s.matchFrame n f) := by
  unfold State.matchFrame
  split
  · split
    · exact (countSlot_acts s n _).trans (wakeTrigger_acts _ _ _)
    · exact .refl
  · split
    · exact countSlot_acts s n _
    · exact .refl
  all_goals exact .refl

theorem dispatchFrame_acts (s : State) (f : List Byte) : Acts s (s.dispatchFrame f) := by
  unfold State.dispatchFrame
  split
  · exact (claimStep_acts s _ _).trans (answerStep_acts _ _ _ _)
  · exact count_acts s _
  · exact matchFrame_acts s _ f
  · exact .refl

theorem takeFrame_acts (bytes : List Byte) (fcsGood : Bool) (s : State) : Acts s (takeFrame bytes fcsGood s) := by
  unfold takeFrame
  split
  · exact count_acts s _
  · exact .refl
  · exact (count_acts s _).trans (dispatchFrame_acts _ _)

/-! ### The acts of the transmitter and the link -/

theorem countCompletion_acts (s : State) (x : Sending) : Acts s (s.countCompletion x) := by
  have answer : Acts s (match (s.count DeviceCounters.countAnswer).binding x.entry with
      | some b => if ((s.count DeviceCounters.countAnswer).entry x.entry).gen = x.gen then
          (s.count DeviceCounters.countAnswer).countSlot b.owner SlotCounters.countAnswer
          else s.count DeviceCounters.countAnswer
      | none => s.count DeviceCounters.countAnswer) := by
    refine (count_acts s DeviceCounters.countAnswer).trans ?_
    split
    · split
      · exact countSlot_acts _ _ _
      · exact .refl
    · exact .refl
  unfold State.countCompletion
  split
  · exact answer
  · exact answer
  · exact count_acts s _

theorem probeCompleted_acts (s : State) (e : Fin 96) (gen : Byte) : Acts s (s.probeCompleted e gen) := by
  unfold State.probeCompleted
  split
  · exact .refl
  · next b hb =>
    split
    · next h =>
      obtain ⟨-, hc, hd⟩ := h
      exact .bindingOnly (.probeSent e b _ hb rfl hc hd)
    · exact .refl

theorem handbackCompleted_acts (s : State) (e : Fin 96) (gen : Byte) : Acts s (s.handbackCompleted e gen) := by
  unfold State.handbackCompleted
  split
  · exact .one (.handbacksLeft false [e])
  · exact .refl

theorem reportCompletion_acts (s : State) (x : Sending) : Acts s (s.reportCompletion x) := by
  unfold State.reportCompletion
  split
  · exact probeCompleted_acts s _ _
  · exact handbackCompleted_acts s _ _
  all_goals exact .refl

theorem completeTransmission_acts (s : State) : Acts s (completeTransmission s) := by
  unfold completeTransmission
  split
  · exact .refl
  · exact ((countCompletion_acts s _).trans (reportCompletion_acts _ _)).trans (.same rfl rfl rfl rfl rfl rfl rfl)

theorem linkFall_acts (s : State) : Acts s (linkFall s) := by
  unfold linkFall
  split
  · have entries : (tabulate 96 fun e => (s.entry e).modBinding Binding.linkLoss)
        = (s.modBindings (List.finRange 96) Binding.linkLoss).entries := by
      simp [State.modBindings, List.mem_finRange]
    have leave : ∀ u : State, Acts u ((s.lostHandbacks ++ s.pendingHandbacks).foldl (State.leaveSet true) u).endReleaseIfDone :=
      fun _ => .one (.handbacksLeft true _)
    refine .trans (.trans ?_ (leave _)) (raiseDevice_acts _ _)
    exact (Acts.one .linkLost).trans (.same rfl entries rfl rfl rfl rfl rfl)
  · exact .refl

theorem linkRise_acts (s : State) : Acts s (linkRise s) := by
  unfold linkRise
  split
  · exact .refl
  · have up : Acts s { s with link := true } := .same rfl rfl rfl rfl rfl rfl rfl
    exact (up.trans (.queue (offerAll_moved _))).trans (raiseDevice_acts _ _)

/-! ### The acts of the mailbox -/

theorem misuse_acts (s : State) : Acts s s.misuse := raiseDevice_acts s _

theorem commandAreaByte_acts (offset v : Byte) (s : State) : Acts s (commandAreaByte offset v s) := by
  unfold commandAreaByte
  split
  · split
    · exact .same rfl rfl rfl rfl rfl rfl rfl
    · exact misuse_acts s
    · exact misuse_acts s
  · exact .refl

theorem acknowledge_acts (s : State) : Acts s (acknowledge s) := by
  unfold acknowledge
  split
  · next h => exact .same rfl rfl rfl rfl rfl rfl (running_of_complete h).symm
  · exact misuse_acts s
  · exact misuse_acts s

theorem abortRelease_acts (s : State) : Acts s (abortRelease s) := by
  unfold abortRelease
  split
  · next r h => exact .one (.releaseAborted r (running_of_executing h))
  · exact misuse_acts s
  · exact misuse_acts s

theorem invalidControl_acts (v : Byte) (s : State) : Acts s (invalidControl v s) := by
  unfold invalidControl
  split
  · exact .refl
  · exact misuse_acts s

theorem refuseGo_acts (s : State) : Acts s (refuseGo s) := by
  unfold refuseGo
  split
  · exact .refl
  · exact misuse_acts s
  · exact misuse_acts s

/-- What the body of a command may reply from the records `u`: acts, with no release in progress when the command is done. -/
def Reply.Lawful (u : State) : Reply → Prop
  | .refuse _ => True
  | .done _ t => Acts u t ∧ t.running = none
  | .started t => Acts u t

theorem complete_acts {s : State} (h : s.running = none) (r : Result) (data : List Byte) : Acts s (s.complete r data) :=
  .same rfl rfl rfl rfl rfl rfl h.symm

theorem runCommand_acts {i : Instr} {body : State → Reply} (lawful : ∀ u : State, u.running = none → (body u).Lawful u)
    (s : State) : Acts s (runCommand i body s) := by
  by_cases h : s.mailbox.state = .idle
  · have placed : Acts s (s.placeCommand i) := .same rfl rfl rfl rfl rfl rfl rfl
    have idle : (s.placeCommand i).running = none := running_of_idle h
    have hl := lawful _ idle
    rw [runCommand_idle i body s h]
    refine placed.trans ?_
    cases hb : body (s.placeCommand i) with
    | refuse r => exact complete_acts idle r []
    | done data t =>
      rw [hb] at hl
      obtain ⟨ht, hr⟩ := hl
      exact ht.trans (complete_acts hr _ data)
    | started t =>
      rw [hb] at hl
      exact hl
  · rw [runCommand_busy i body s h]
    exact misuse_acts s

theorem unknownGo_acts (code : Byte) (s : State) : Acts s (unknownGo code s) := by
  unfold unknownGo
  split
  · exact .refl
  · exact runCommand_acts (body := fun _ => .refuse .unknownCommand) (fun _ _ => trivial) s

end Sys2Proof.Machine

namespace Sys2Proof.Machine

/-! ### The bodies of the commands -/

theorem slotArg_eq_some {b : Byte} {n : Fin 16} : slotArg b = some n ↔ n.val = b.toNat := by
  unfold slotArg
  split
  · simp [Fin.ext_iff, eq_comm]
  · have := n.isLt
    simp only [reduceCtorEq, false_iff]
    omega

theorem anySlot_eq_false {s : State} {p : Slot → Bool} : s.anySlot p = false ↔ ∀ n, p (s.slot n) = false := by
  simp [State.anySlot]

theorem anySlot_eq_true {s : State} {p : Slot → Bool} : s.anySlot p = true ↔ ∃ n, p (s.slot n) = true := by
  simp [State.anySlot]

variable {u : State}

theorem setStationBody_lawful (a : LinkAddr) (h : u.running = none) : (setStationBody a u).Lawful u := by
  unfold setStationBody
  split
  · trivial
  next hg =>
  split
  · trivial
  next hu =>
  split
  · trivial
  next ha =>
  split
  · trivial
  next hc =>
  have unused := anySlot_eq_false.mp (eq_false_of_ne_true hu)
  refine ⟨.one (.stationSet a (eq_false_of_ne_true hg) unused (fun h0 => ?_) fun h0 n q => ?_), h⟩
  · exact anySlot_eq_false.mp (eq_false_of_ne_true fun q => ha ⟨h0, q⟩)
  · exact hc ⟨h0, anySlot_eq_true.mpr ⟨n, by simp [q]⟩⟩

theorem setSegmentBody_lawful (tag : BitVec 16) (h : u.running = none) : (setSegmentBody tag u).Lawful u := by
  unfold setSegmentBody
  split
  · trivial
  next hr =>
  split
  · trivial
  · exact ⟨.one (.segmentSet tag (Nat.lt_of_not_le hr)), h⟩

theorem setTimingBody_lawful (count : Byte) (interval : BitVec 16) (window : Byte) (h : u.running = none) :
    (setTimingBody count interval window u).Lawful u := by
  unfold setTimingBody
  split
  · trivial
  next hr =>
  split
  · trivial
  next hp =>
  have still : ∀ n, (u.slot n).state ≠ .probing := fun n => by
    simpa using anySlot_eq_false.mp (eq_false_of_ne_true hp) n
  have act := Act.timingSet count.toNat interval.toNat window.toNat (eq_true_of_ne_false hr) still
  have entries : (tabulate 96 fun e => (u.entry e).modBinding (Binding.trimProbes count.toNat))
      = (u.modBindings (List.finRange 96) (Binding.trimProbes count.toNat)).entries := by
    simp [State.modBindings, List.mem_finRange]
  rw [entries]
  exact ⟨.one act, h⟩

theorem setAttentionMaskBody_lawful (slotMask deviceMask enable : Byte) (h : u.running = none) :
    (setAttentionMaskBody slotMask deviceMask enable u).Lawful u := by
  unfold setAttentionMaskBody
  split
  · trivial
  next hm =>
  push Not at hm
  obtain ⟨hs, hd⟩ := hm
  split
  · trivial
  · exact ⟨.one (.masksSet _ _ _ hs hd), h⟩

theorem readDeviceBody_lawful (clear : Byte) (h : u.running = none) : (readDeviceBody clear u).Lawful u := by
  unfold readDeviceBody
  split
  · trivial
  next c _ =>
  cases c
  · exact ⟨.refl, h⟩
  · exact ⟨.same rfl rfl rfl rfl rfl rfl rfl, h⟩

theorem deviceReset_blank (h : u.running = none) : Blank u u.deviceReset where
  slot n := by simp [State.slot, State.deviceReset]
  binding e := by
    rw [State.binding, State.entry, State.deviceReset]
    simp only [Fin.getElem_fin, getElem_tabulate, Fin.eta, Entry.free]
    split
    · rfl
    · next hb => simpa using hb
  way k w e := by simp [State.wayHolds, State.bucket, State.deviceReset]
  pattern p := by simp [State.pattern, State.deviceReset]
  settings := .inl rfl
  deviceAttention := rfl
  running := h

theorem deviceResetBody_lawful (h : u.running = none) : (deviceResetBody u).Lawful u :=
  ⟨.one (.blanked (deviceReset_blank h)), h⟩

theorem openSlotBody_lawful (slot : Byte) (client : LinkAddr) (mode : Byte) (h : u.running = none) :
    (openSlotBody slot client mode u).Lawful u := by
  unfold openSlotBody
  split
  next n m _ _ =>
    split
    · trivial
    next hc =>
    push Not at hc
    obtain ⟨nonzero, group⟩ := hc
    split
    · trivial
    next hv =>
    split
    · trivial
    next hk =>
    push Not at hv hk
    obtain ⟨apart, station⟩ := hk
    split
    · trivial
    · refine ⟨.one (.slotOpened n client m nonzero (eq_false_of_ne_true group) hv (fun k q => ?_) station), h⟩
      exact apart (anySlot_eq_true.mpr ⟨k, by simp [q]⟩)
  all_goals trivial

theorem setSlotPolicyBody_lawful (slot loss rearm pulse : Byte) (timeout : BitVec 16) (retries : Byte) (h : u.running = none) :
    (setSlotPolicyBody slot loss rearm pulse timeout retries u).Lawful u := by
  unfold setSlotPolicyBody
  split
  next n l a _ _ _ =>
    split
    · trivial
    next hr =>
    split
    · trivial
    next hs =>
    push Not at hs
    have byte : pulse.toNat ≤ 255 := by have := pulse.isLt; omega
    exact ⟨.slotOnly (.policySet l a _ _ _ hs (eq_true_of_ne_false hr) byte), h⟩
  all_goals trivial

theorem lowestFree_free {e : Fin 96} (h : u.lowestFree = some e) : u.binding e = none := by
  simpa using List.find?_some h

theorem lowestWay_empty {b : Fin 64} {w : Fin 4} (h : u.lowestWay b = some w) : (u.bucket b)[w] = none := by
  simpa using List.find?_some h

theorem addrArg_usable {family : Byte} {address : BitVec 128} {a : Addr} (h : addrArg family address = some a) :
    a.usable = true :=
  (Option.filter_eq_some_iff.mp h).2

theorem addAddressBody_lawful (slot family : Byte) (address : BitVec 128) (h : u.running = none) :
    (addAddressBody slot family address u).Lawful u := by
  unfold addAddressBody
  split
  next n a _ ha =>
    split
    · trivial
    next hs =>
    split
    · trivial
    next hl =>
    push Not at hs
    unfold State.insertion
    split
    · trivial
    next e he =>
    split
    · trivial
    next hk =>
    split
    · trivial
    next w hw =>
    refine ⟨.one (.inserted n a e w (addrArg_usable ha) hs (Nat.lt_of_not_le hl) (lowestFree_free he) ?_
      (lowestWay_empty hw)), h⟩
    simpa using hk
  all_goals trivial

theorem removeAddressBody_lawful (entry : Byte) (h : u.running = none) : (removeAddressBody entry u).Lawful u := by
  unfold removeAddressBody
  split
  · trivial
  split
  · trivial
  next b hb =>
  split
  · trivial
  next hs =>
  push Not at hs
  exact ⟨.one (.removed _ b hb hs h), h⟩

theorem attachPatternBody_lawful (slot pattern : Byte) (h : u.running = none) : (attachPatternBody slot pattern u).Lawful u := by
  unfold attachPatternBody
  split
  next n p _ _ =>
    split
    · trivial
    next hp =>
    split
    · trivial
    next hs =>
    split
    · trivial
    next hd =>
    split
    · trivial
    next hl =>
    push Not at hs
    exact ⟨.one (.attached n p hs hp (by simpa using hd) (Nat.lt_of_not_le hl)), h⟩
  all_goals trivial

theorem detachPatternBody_lawful (slot pattern : Byte) (h : u.running = none) : (detachPatternBody slot pattern u).Lawful u := by
  unfold detachPatternBody
  split
  next n p _ _ =>
    split
    · trivial
    next hs =>
    split
    · trivial
    next hp =>
    push Not at hs hp
    exact ⟨.one (.detached n p hs hp), h⟩
  all_goals trivial

theorem armBody_lawful (slot : Byte) (h : u.running = none) : (armBody slot u).Lawful u := by
  unfold armBody
  split
  · trivial
  next n _ =>
  split
  · trivial
  next hs =>
  split
  · trivial
  next ho =>
  split
  · trivial
  next he =>
  push Not at hs ho
  have can : u.canArm n := ⟨he, ho⟩
  split
  · exact ⟨.slotOnly (.armed hs can), h⟩
  · exact ⟨probingStart_acts u n (.inr ⟨hs, can⟩), (running_congr (offerDuties_moved _ _).mailbox).trans h⟩

theorem disarmBody_lawful (slot : Byte) (h : u.running = none) : (disarmBody slot u).Lawful u := by
  unfold disarmBody
  split
  · trivial
  split
  · next hs => exact ⟨.slotOnly (.disarmed hs), h⟩
  · next hs => exact ⟨.one (.slotWork (.probingStopped hs)), h⟩
  all_goals trivial

theorem wakeBody_lawful (slot : Byte) (h : u.running = none) : (wakeBody slot u).Lawful u := by
  unfold wakeBody
  split
  · trivial
  next n _ =>
  split
  · next hs => exact ⟨startWake_acts u n _ (.inl hs), h⟩
  · next hs => exact ⟨startWake_acts u n _ (.inr hs), h⟩
  all_goals trivial

theorem enterReleasing_acts (n : Fin 16) (h : u.running = none) (own : (u.slot n).mode = some .own) (held : u.slotHeld n = true) :
    Acts u (u.enterReleasing n) :=
  (Acts.one (.releaseStarted n h own held)).trans (.queue (offerDuties_moved _ _))

theorem releaseBody_lawful (slot announce : Byte) (h : u.running = none) : (releaseBody slot announce u).Lawful u := by
  unfold releaseBody
  split
  · split
    · trivial
    · split
      · next ha =>
        obtain ⟨-, own, held⟩ := ha
        exact enterReleasing_acts _ h own held
      · exact ⟨.one (.vacated _ h), h⟩
  all_goals trivial

theorem readSlotBody_lawful (slot clear : Byte) (h : u.running = none) : (readSlotBody slot clear u).Lawful u := by
  unfold readSlotBody
  split
  next n c _ _ =>
    cases c
    · exact ⟨.refl, h⟩
    · exact ⟨.slotOnly (.counted fun _ => {}), h⟩
  all_goals trivial

theorem readEntryBody_lawful (entry : Byte) (h : u.running = none) : (readEntryBody entry u).Lawful u := by
  unfold readEntryBody
  split
  · trivial
  · exact ⟨.refl, h⟩

theorem lookupBody_lawful (family : Byte) (address : BitVec 128) (h : u.running = none) :
    (lookupBody family address u).Lawful u := by
  unfold lookupBody
  split
  · trivial
  split
  · trivial
  split
  · trivial
  · exact ⟨.refl, h⟩

theorem readAttentionBody_lawful (which : Byte) (h : u.running = none) : (readAttentionBody which u).Lawful u := by
  unfold readAttentionBody
  split
  · exact ⟨.one .deviceRead, h⟩
  split
  · trivial
  · exact ⟨.slotOnly .attentionRead, h⟩

theorem writePatternBody_lawful (pattern offset length : Byte) (mask : BitVec 32) (value : Vector Byte 32) (h : u.running = none) :
    (writePatternBody pattern offset length mask value u).Lawful u := by
  unfold writePatternBody
  split
  · trivial
  split
  · trivial
  next hr =>
  split
  · trivial
  next hu =>
  push Not at hu
  exact ⟨.one (.patternWritten _ _ _ mask value hu (eq_true_of_ne_false hr)), h⟩

theorem clearPatternBody_lawful (pattern : Byte) (h : u.running = none) : (clearPatternBody pattern u).Lawful u := by
  unfold clearPatternBody
  split
  · trivial
  split
  · trivial
  next hu =>
  push Not at hu
  exact ⟨.one (.patternCleared _ hu), h⟩

theorem readPatternBody_lawful (pattern : Byte) (h : u.running = none) : (readPatternBody pattern u).Lawful u := by
  unfold readPatternBody
  split
  · trivial
  · exact ⟨.refl, h⟩

/-! ### Every step -/

theorem event_acts {f : State → State} {s t : State} (act : Acts s (f s)) (h : event f s = .next t) : Acts s t := by
  rcases event_cases f s t h with ⟨-, rfl⟩ | ⟨-, rfl⟩
  · exact .refl
  · exact act.trans (.queue (serve_moved _))

/-- The power-on values of every record (R2, R13, R17, R24, R25, R140, R158). -/
theorem blank_of_reset {s t : State} (slots : t.slots = State.reset.slots) (entries : t.entries = State.reset.entries)
    (index : t.index = State.reset.index) (patterns : t.patterns = State.reset.patterns) (settings : t.settings = {})
    (deviceAttention : t.deviceAttention = 0) (mailbox : t.mailbox = {}) : Blank s t where
  slot n := by simp [State.slot, slots, State.reset]
  binding e := by simp [State.binding, State.entry, entries, State.reset]
  way k w e := by simp [State.wayHolds, State.bucket, index, State.reset]
  pattern p := by simp [State.pattern, patterns, State.reset]
  settings := .inr settings
  deviceAttention := deviceAttention
  running := by simp [State.running, mailbox]

theorem exec_acts {i : Instr} {s t : State} (h : exec i s = .next t) : Acts s t := by
  cases i with
  | powerOn awake link csLow =>
    cases h
    exact .one (.blanked (blank_of_reset rfl rfl rfl rfl rfl rfl rfl))
  | resetNAsserted =>
    cases h
    exact .one (.blanked (blank_of_reset rfl rfl rfl rfl rfl rfl rfl))
  | awakeRises n => exact event_acts (awakeRise_acts n s) h
  | awakeFalls n => exact event_acts (awakeFall_acts n s) h
  | linkLoss => exact event_acts (linkFall_acts s) h
  | linkUp => exact event_acts (linkRise_acts s) h
  | frameTaken bytes fcsGood => exact event_acts (takeFrame_acts bytes fcsGood s) h
  | probeTimerExpiry e => exact event_acts (expiry_acts (probeTimer_acts e) s) h
  | defenceDeadlineReached e => exact event_acts (expiry_acts (defenceDeadline_acts e) s) h
  | pulseTimerExpiry n => exact event_acts (expiry_acts (pulseTimer_acts n) s) h
  | wakeTimeoutExpiry n => exact event_acts (expiry_acts (timeoutTimer_acts n) s) h
  | transmissionComplete => exact event_acts (completeTransmission_acts s) h
  | itemTake => exact event_acts (f := id) .refl h
  | pendingDutyTaken => exact event_acts (.queue (givePlace_moved s)) h
  | commandAreaWrite offset value => exact event_acts (commandAreaByte_acts offset value s) h
  | windowWriteIgnored offset value => exact event_acts (f := id) .refl h
  | ack => exact event_acts (acknowledge_acts s) h
  | abort => exact event_acts (abortRelease_acts s) h
  | invalidControlWrite value => exact event_acts (invalidControl_acts value s) h
  | unknownCommand code => exact event_acts (unknownGo_acts code s) h
  | goRefused => exact event_acts (refuseGo_acts s) h
  | setStation a => exact event_acts (runCommand_acts (fun _ => setStationBody_lawful a) s) h
  | setSegment tag => exact event_acts (runCommand_acts (fun _ => setSegmentBody_lawful tag) s) h
  | setTiming c i w => exact event_acts (runCommand_acts (fun _ => setTimingBody_lawful c i w) s) h
  | setAttentionMask a b c => exact event_acts (runCommand_acts (fun _ => setAttentionMaskBody_lawful a b c) s) h
  | readDevice c => exact event_acts (runCommand_acts (fun _ => readDeviceBody_lawful c) s) h
  | deviceReset => exact event_acts (runCommand_acts (fun _ => deviceResetBody_lawful) s) h
  | openSlot n a m => exact event_acts (runCommand_acts (fun _ => openSlotBody_lawful n a m) s) h
  | setSlotPolicy n l a p t r => exact event_acts (runCommand_acts (fun _ => setSlotPolicyBody_lawful n l a p t r) s) h
  | addAddress n f a => exact event_acts (runCommand_acts (fun _ => addAddressBody_lawful n f a) s) h
  | removeAddress e => exact event_acts (runCommand_acts (fun _ => removeAddressBody_lawful e) s) h
  | attachPattern n p => exact event_acts (runCommand_acts (fun _ => attachPatternBody_lawful n p) s) h
  | detachPattern n p => exact event_acts (runCommand_acts (fun _ => detachPatternBody_lawful n p) s) h
  | arm n => exact event_acts (runCommand_acts (fun _ => armBody_lawful n) s) h
  | disarm n => exact event_acts (runCommand_acts (fun _ => disarmBody_lawful n) s) h
  | wake n => exact event_acts (runCommand_acts (fun _ => wakeBody_lawful n) s) h
  | release n a => exact event_acts (runCommand_acts (fun _ => releaseBody_lawful n a) s) h
  | readSlot n c => exact event_acts (runCommand_acts (fun _ => readSlotBody_lawful n c) s) h
  | readEntry e => exact event_acts (runCommand_acts (fun _ => readEntryBody_lawful e) s) h
  | lookup f a => exact event_acts (runCommand_acts (fun _ => lookupBody_lawful f a) s) h
  | readAttention w => exact event_acts (runCommand_acts (fun _ => readAttentionBody_lawful w) s) h
  | writePattern p o l m v => exact event_acts (runCommand_acts (fun _ => writePatternBody_lawful p o l m v) s) h
  | clearPattern p => exact event_acts (runCommand_acts (fun _ => clearPatternBody_lawful p) s) h
  | readPattern p => exact event_acts (runCommand_acts (fun _ => readPatternBody_lawful p) s) h

/-- Every step is a chain of acts. -/
theorem step_acts {s t : State} (h : step s = .next t) : Acts s t := by
  cases hp : s.pending with
  | nil =>
    rw [step_nil s hp] at h
    cases h
    unfold tick
    split
    · exact .refl
    · exact (passCounts_acts s 1).trans (.same rfl rfl rfl rfl rfl rfl rfl)
  | cons c rest =>
    rw [step_cons s c rest hp] at h
    have front : Acts s { s with pending := rest } := .same rfl rfl rfl rfl rfl rfl rfl
    exact front.trans (exec_acts h)

end Sys2Proof.Machine

namespace Sys2Proof.Machine

/-! ### What work on a slot keeps -/

theorem Slot.endProbing_cases (p h : Bool) (x : Slot) :
    x.endProbing p h = x
      ∨ x.state = .probing ∧ p = false ∧ h = true ∧ x.endProbing p h = { x with state := .proxying }.raise .active
      ∨ x.state = .probing ∧ p = false ∧ h = false ∧ x.endProbing p h = { x with state := .staged }.raise .armFailed := by
  unfold Slot.endProbing
  split
  · next q =>
    obtain ⟨hs, hp⟩ := q
    cases h <;> simp [hs, hp]
  · exact .inl rfl

/-- The fields of a slot's record that the slot controller does not write while the slot works. -/
structure Slot.Kept (x y : Slot) : Prop where
  addresses : y.addresses = x.addresses
  patterns : y.patterns = x.patterns
  client : y.client = x.client
  mode : y.mode = x.mode
  outstanding : y.outstanding = x.outstanding

theorem Slot.kept_endProbing (p h : Bool) (x : Slot) : x.Kept (x.endProbing p h) := by
  rcases x.endProbing_cases p h with q | ⟨-, -, -, q⟩ | ⟨-, -, -, q⟩ <;> rw [q]
  · exact ⟨rfl, rfl, rfl, rfl, rfl⟩
  · exact ⟨rfl, rfl, rfl, rfl, rfl⟩
  · exact ⟨rfl, rfl, rfl, rfl, rfl⟩

theorem SlotWork.kept {s : State} {n : Fin 16} {es : List (Fin 96)} {g : Binding → Binding} {f : Slot → Slot}
    (h : SlotWork s n es g f) (x : Slot) : x.Kept (f x) := by
  cases h with
  | tentativeLost =>
    obtain ⟨h1, h2, h3, h4, h5⟩ := Slot.kept_endProbing _ _ (x.claimed .conflict)
    exact ⟨h1, h2, h3, h4, h5⟩
  | finalWaitEnded => exact Slot.kept_endProbing _ _ x
  | _ => exact ⟨rfl, rfl, rfl, rfl, rfl⟩

/-- The owner and the key of an entry (R10). -/
def Binding.key (b : Binding) : Fin 16 × Addr := (b.owner, b.addr)

theorem SlotWork.key {s : State} {n : Fin 16} {es : List (Fin 96)} {g : Binding → Binding} {f : Slot → Slot}
    (h : SlotWork s n es g f) (b : Binding) : (g b).key = b.key := by
  cases h with
  | probingStopped => unfold Binding.disarm; split <;> rfl
  | darkened => unfold Binding.endDefence; split <;> rfl
  | defenceEnded => unfold Binding.endDefence; split <;> rfl
  | handedBack => unfold Binding.handBack; split <;> rfl
  | _ => rfl

/-- How the state of a slot at work may change: never into or out of VACANT and RELEASING, and out of STAGED, in OWN mode, only with a
station address (R182). -/
structure SlotState.Works (x y : SlotState) (station : Prop) : Prop where
  old : x ≠ .vacant ∧ x ≠ .releasing
  new : y ≠ .vacant ∧ y ≠ .releasing
  leaves : x ≠ .staged ∨ station

theorem SlotState.Works.of_standsIn {x y : SlotState} {station : Prop} (h : x.standsIn = true) (hy : y ≠ .vacant ∧ y ≠ .releasing) :
    x.Works y station := by
  cases x
  case vacant | staged | armed | releasing => cases h
  all_goals exact ⟨by decide, hy, .inl (by decide)⟩

theorem Slot.endProbing_state (p h : Bool) (x : Slot) (station : Prop) :
    (x.endProbing p h).state = x.state ∨ x.state.Works (x.endProbing p h).state station := by
  rcases x.endProbing_cases p h with q | ⟨hs, -, -, q⟩ | ⟨hs, -, -, q⟩ <;> rw [q]
  · exact .inl rfl
  · exact .inr (.of_standsIn (y := .proxying) (by rw [hs]; rfl) (by decide))
  · exact .inr (.of_standsIn (y := .staged) (by rw [hs]; rfl) (by decide))

theorem SlotWork.state {s : State} {n : Fin 16} {es : List (Fin 96)} {g : Binding → Binding} {f : Slot → Slot}
    (h : SlotWork s n es g f) : (f (s.slot n)).state = (s.slot n).state
      ∨ (s.slot n).state.Works (f (s.slot n)).state ((s.slot n).mode = some .own → s.settings.station ≠ 0) := by
  cases h with
  | armed staged can => exact .inr (.mk (y := .armed) (by simp [staged]) (by decide) (.inr can.2))
  | probing still =>
    rcases still with hs | ⟨hs, can⟩
    · exact .inr (.mk (y := .probing) (by simp [hs]) (by decide) (.inl (by simp [hs])))
    · exact .inr (.mk (y := .probing) (by simp [hs]) (by decide) (.inr can.2))
  | disarmed armed => exact .inr (.mk (y := .staged) (by simp [armed]) (by decide) (.inl (by simp [armed])))
  | probingStopped probing => exact .inr (.of_standsIn (y := .staged) (by rw [probing]; rfl) (by decide))
  | wakeBegun c sleeping =>
    refine .inr (.of_standsIn (y := .waking) ?_ (by decide))
    rcases sleeping with hs | hs <;> rw [hs] <;> rfl
  | darkened waking => exact .inr (.of_standsIn (y := .dark) (by rw [waking]; rfl) (by decide))
  | handedBack standsIn =>
    have hy : ∀ a : Bool, (if a then SlotState.armed else .staged) ≠ .vacant
        ∧ (if a then SlotState.armed else .staged) ≠ .releasing := by decide
    exact .inr (.of_standsIn standsIn (hy (s.slot n).autoRearm))
  | tentativeLost => exact Slot.endProbing_state _ _ ((s.slot n).claimed .conflict) _
  | finalWaitEnded => exact Slot.endProbing_state _ _ (s.slot n) _
  | _ => exact .inl rfl

/-! ### What an act does to a slot's record -/

/-- The record `y` that slot `n` of `s` may have after an act. -/
inductive SlotChange (s : State) (n : Fin 16) : Slot → Prop where
  | worked {es : List (Fin 96)} {g : Binding → Binding} {f : Slot → Slot} (h : SlotWork s n es g f) : SlotChange s n (f (s.slot n))
  | listed (as : List (Fin 96)) (ps : List (Fin 32)) (k : Nat) :
      SlotChange s n { s.slot n with addresses := as, patterns := ps, outstanding := k }
  | opened (client : LinkAddr) (m : AnswerMode) (vacant : (s.slot n).state = .vacant) :
      SlotChange s n { s.slot n with
        state := .staged, client := some client, mode := some m
        loss := .notify, autoRearm := false, pulseWidth := Config.vacantPulseWidth
        wakeTimeout := Config.vacantWakeTimeout, wakeRetries := Config.vacantWakeRetries, counters := {} }
  | releasing (k : Nat) : SlotChange s n { (s.slot n).endWake with state := .releasing, outstanding := k }
  | vacated (c : SlotCounters) : SlotChange s n { counters := c }

theorem SlotChange.same (s : State) (n : Fin 16) : SlotChange s n (s.slot n) :=
  .listed (s.slot n).addresses (s.slot n).patterns (s.slot n).outstanding

theorem SlotChange.ite {s : State} {n m : Fin 16} {y : Slot} (h : n = m → SlotChange s m y) :
    SlotChange s m (if n = m then y else s.slot m) := by
  split
  · next q => exact h q
  · exact .same s m

theorem slotChange_becomeVacant {s u : State} (k : Nat) (n m : Fin 16) (h : u.slot m = { s.slot m with outstanding := k }) :
    SlotChange s m ((u.becomeVacant n).slot m) := by
  rw [slot_becomeVacant]
  split
  · exact .vacated _
  · rw [h]
    exact .listed _ _ k

/-! ### Starting a release and leaving its handback set -/

@[simp] theorem slot_startRelease (s : State) (n m : Fin 16) :
    (s.startRelease n).slot m = if n = m then
      { (s.slot m).endWake with state := .releasing, outstanding := ((s.slot n).addresses.filter s.isHeld).length }
      else s.slot m :=
  slot_modSlot (s.modBindings (s.slot n).addresses Binding.release) n m fun x =>
    { x.endWake with state := .releasing, outstanding := ((s.slot n).addresses.filter s.isHeld).length }

/-- One handback less is outstanding; the release in progress becomes `r` (R52). -/
def State.leaves (s : State) (r : Release) : State :=
  { s.modSlot r.slot (fun x => { x with outstanding := x.outstanding - 1 }) with
    mailbox := { s.mailbox with state := .executing r } }

@[simp] theorem slot_leaves (s : State) (r : Release) (m : Fin 16) :
    (s.leaves r).slot m = if r.slot = m then { s.slot m with outstanding := (s.slot m).outstanding - 1 } else s.slot m :=
  slot_modSlot s r.slot m fun x => { x with outstanding := x.outstanding - 1 }

/-- A handback leaves the set only if it is in it (R52). -/
theorem leaveSet_cases (d : Bool) (s : State) (e : Fin 96) :
    s.leaveSet d e = s ∨ ∃ r r' : Release, s.running = some r ∧ e ∈ r.set ∧ r'.slot = r.slot ∧ r'.set = r.set.erase e
      ∧ s.leaveSet d e = s.leaves r' := by
  unfold State.leaveSet
  split
  · next r hr =>
    split
    · next he => exact .inr ⟨r, { r with set := r.set.erase e, mark := r.mark || d }, running_of_executing hr, he, rfl, rfl, rfl⟩
    · exact .inl rfl
  · exact .inl rfl
  · exact .inl rfl

/-- The records as a release in progress ends, before its slot becomes VACANT (R53). -/
def State.releaseEnded (s : State) : State := { s with mailbox := { s.mailbox with state := .complete } }

theorem releaseEnded_running (s : State) : s.releaseEnded.running = none := rfl

/-- A release that ends makes its slot VACANT and leaves none in progress (R53). -/
theorem finishRelease_moved (s : State) (n : Fin 16) (r : Result) : Moved (s.releaseEnded.becomeVacant n) (s.finishRelease n r) :=
  .of_same rfl rfl rfl rfl rfl rfl rfl

theorem endReleaseIfDone_cases (s : State) : s.endReleaseIfDone = s
    ∨ ∃ r res, s.running = some r ∧ (s.slot r.slot).outstanding = 0 ∧ s.endReleaseIfDone = s.finishRelease r.slot res := by
  unfold State.endReleaseIfDone
  split
  · next r hr =>
    split
    · next h0 => exact .inr ⟨r, _, running_of_executing hr, h0, rfl⟩
    · exact .inl rfl
  · exact .inl rfl
  · exact .inl rfl

/-- A property that moves, leaving the set and the end of a release keep, the acts of a release in progress keep. -/
structure KeptByRelease (P : State → Prop) : Prop where
  moved : ∀ {s t}, P s → Moved s t → P t
  leaves : ∀ {s r r'}, P s → s.running = some r → r'.slot = r.slot → (∀ e, e ∈ r'.set → e ∈ r.set) →
    (r.set.Nodup → r'.set.Nodup) → P (s.leaves r')
  ended : ∀ {s}, P s → P s.releaseEnded
  vacated : ∀ {s} (n), P s → s.running = none → P (s.becomeVacant n)

namespace KeptByRelease

variable {P : State → Prop} (k : KeptByRelease P)
include k

theorem finishRelease {s : State} (h : P s) (n : Fin 16) (r : Result) : P (s.finishRelease n r) :=
  k.moved (k.vacated n (k.ended h) (releaseEnded_running s)) (finishRelease_moved s n r)

theorem leaveSet {s : State} (h : P s) (d : Bool) (e : Fin 96) : P (s.leaveSet d e) := by
  rcases leaveSet_cases d s e with q | ⟨r, r', hr, -, hslot, hset, q⟩ <;> rw [q]
  · exact h
  · exact k.leaves h hr hslot (fun c hc => List.mem_of_mem_erase (hset ▸ hc)) fun hn => hset ▸ hn.erase e

theorem handbacksLeft {s : State} (h : P s) (d : Bool) (es : List (Fin 96)) :
    P (es.foldl (State.leaveSet d) s).endReleaseIfDone := by
  have hf : P (es.foldl (State.leaveSet d) s) := by
    induction es generalizing s with
    | nil => exact h
    | cons e es ih => exact ih (k.leaveSet h d e)
  rcases endReleaseIfDone_cases (es.foldl (State.leaveSet d) s) with q | ⟨r, res, -, -, q⟩ <;> rw [q]
  · exact hf
  · exact k.finishRelease hf r.slot res

end KeptByRelease

theorem foldl_leaveSet_slot (d : Bool) (es : List (Fin 96)) (s : State) (m : Fin 16) :
    ∃ k, (es.foldl (State.leaveSet d) s).slot m = { s.slot m with outstanding := k } := by
  induction es generalizing s with
  | nil => exact ⟨_, rfl⟩
  | cons e es ih =>
    obtain ⟨k, hk⟩ := ih (s.leaveSet d e)
    refine ⟨k, hk.trans ?_⟩
    rcases leaveSet_cases d s e with q | ⟨r, r', -, -, -, -, q⟩ <;> rw [q]
    rw [slot_leaves]
    split <;> rfl

/-- What an act does to a slot's record, said once. -/
theorem Act.slotChange {s t : State} (h : Act s t) (m : Fin 16) : SlotChange s m (t.slot m) := by
  cases h with
  | moved h => rw [h.slot]; exact .same s m
  | slotWork h =>
    rw [slot_modSlot]
    exact .ite fun q => by subst q; exact .worked h
  | deviceRaised k => exact .same s m
  | deviceRead => exact .same s m
  | stationSet => exact .same s m
  | segmentSet => exact .same s m
  | timingSet => exact .same s m
  | masksSet => exact .same s m
  | slotOpened n client mode _ _ vacant =>
    rw [slot_modSlot]
    exact .ite fun q => by subst q; exact .opened client mode vacant
  | inserted n a e w =>
    rw [slot_insert]
    exact .ite fun _ => .listed _ _ _
  | removed e => rw [slot_freeEntries]; exact .listed _ _ _
  | attached n p =>
    rw [slot_modSlot]
    exact .ite fun _ => .listed _ _ _
  | detached n p =>
    rw [slot_modSlot]
    exact .ite fun _ => .listed _ _ _
  | patternWritten => exact .same s m
  | patternCleared => exact .same s m
  | vacated n => exact slotChange_becomeVacant _ n m rfl
  | releaseStarted n =>
    rw [slot_startRelease]
    exact .ite fun _ => .releasing _
  | handbacksLeft d es =>
    obtain ⟨k, hk⟩ := foldl_leaveSet_slot d es s m
    rcases endReleaseIfDone_cases (es.foldl (State.leaveSet d) s) with q | ⟨r, res, -, -, q⟩ <;> rw [q]
    · rw [hk]
      exact .listed _ _ k
    · rw [(finishRelease_moved _ _ _).slot]
      exact slotChange_becomeVacant k _ m hk
  | releaseAborted r =>
    rw [(finishRelease_moved _ _ _).slot]
    exact slotChange_becomeVacant _ _ m rfl
  | linkLost => exact .same s m
  | blanked h => rw [h.slot]; exact .vacated {}

/-! ### Wake timers, policies, attention sets and settings -/

theorem raise_places {a k m : Byte} (ha : a &&& m = 0) (hk : k &&& m = 0) : (a ||| k) &&& m = 0 := by
  refine BitVec.eq_of_getLsbD_eq fun i _ => ?_
  have h1 := congrArg (BitVec.getLsbD · i) ha
  have h2 := congrArg (BitVec.getLsbD · i) hk
  simp only [BitVec.getLsbD_and] at h1 h2
  rw [BitVec.getLsbD_and, BitVec.getLsbD_or, Bool.and_or_distrib_right, h1, h2, Bool.or_self]

theorem SlotKind.flag_places (k : SlotKind) : k.flag &&& 0x80#8 = 0 := by cases k <;> decide

theorem DeviceKind.flag_places (k : DeviceKind) : k.flag &&& 0xF0#8 = 0 := by cases k <;> decide

/-- The attention set of a slot holds slot kinds only (R140). -/
theorem SlotChange.attention {s : State} {n : Fin 16} {y : Slot} (h : SlotChange s n y) (hx : (s.slot n).attention &&& 0x80#8 = 0) :
    y.attention &&& 0x80#8 = 0 := by
  have ended : ∀ (p q : Bool) (x : Slot), x.attention &&& 0x80#8 = 0 → (x.endProbing p q).attention &&& 0x80#8 = 0 := by
    intro p q x hx
    rcases x.endProbing_cases p q with e | ⟨-, -, -, e⟩ | ⟨-, -, -, e⟩ <;> rw [e]
    · exact hx
    · exact raise_places hx (SlotKind.flag_places _)
    · exact raise_places hx (SlotKind.flag_places _)
  cases h with
  | worked h =>
    cases h with
    | attentionRead => exact BitVec.zero_and
    | wakeBegun => exact raise_places hx (SlotKind.flag_places .wakeSent)
    | darkened => exact raise_places hx (SlotKind.flag_places .wakeFailed)
    | handedBack => exact raise_places hx (SlotKind.flag_places .handback)
    | tentativeLost => exact ended _ _ _ (raise_places hx (SlotKind.flag_places .conflict))
    | heldDefended => exact raise_places hx (SlotKind.flag_places .defended)
    | defendedLost => exact raise_places hx (SlotKind.flag_places .conflict)
    | finalWaitEnded => exact ended _ _ _ hx
    | _ => exact hx
  | vacated => exact BitVec.zero_and
  | _ => exact hx

theorem policyLaw_of_range {x : Slot} (h : x.attempts ≤ 8)
    (range : policyInRange x.pulseWidth x.wakeTimeout x.wakeRetries = true) (byte : x.pulseWidth ≤ 255) : PolicyLaw x := by
  simp only [policyInRange, Bool.and_eq_true, decide_eq_true_eq] at range
  obtain ⟨⟨⟨⟨⟨h1, h2⟩, -⟩, h4⟩, h5⟩, h6⟩ := range
  exact ⟨h1, byte, h2, h4, h5, h6, h⟩

theorem vacant_policyInRange :
    policyInRange Config.vacantPulseWidth Config.vacantWakeTimeout Config.vacantWakeRetries = true := by decide

theorem vacant_pulse_byte : Config.vacantPulseWidth ≤ 255 := by decide

theorem Slot.policyLaw_endProbing {x : Slot} (h : PolicyLaw x) (p q : Bool) : PolicyLaw (x.endProbing p q) := by
  rcases x.endProbing_cases p q with e | ⟨-, -, -, e⟩ | ⟨-, -, -, e⟩ <;> rw [e] <;> exact h

/-- The wake policy and the attempts made stay in range (R1, R7). -/
theorem SlotChange.policyLaw {s : State} {n : Fin 16} {y : Slot} (h : SlotChange s n y) (hx : PolicyLaw (s.slot n)) : PolicyLaw y := by
  obtain ⟨h1, h2, h3, h4, h5, h6, h7⟩ := hx
  cases h with
  | worked h =>
    cases h with
    | policySet l a pulse timeout retries staged range byte => exact policyLaw_of_range h7 range byte
    | wakeBegun => exact ⟨h1, h2, h3, h4, h5, h6, by simp [Slot.beginAttempt, Slot.raise]⟩
    | attempted waking left =>
      refine ⟨h1, h2, h3, h4, h5, h6, ?_⟩
      show (s.slot n).attempts + 1 ≤ 8
      omega
    | tentativeLost => exact Slot.policyLaw_endProbing (x := (s.slot n).claimed .conflict) ⟨h1, h2, h3, h4, h5, h6, h7⟩ _ _
    | finalWaitEnded => exact Slot.policyLaw_endProbing ⟨h1, h2, h3, h4, h5, h6, h7⟩ _ _
    | _ => exact ⟨h1, h2, h3, h4, h5, h6, h7⟩
  | opened => exact policyLaw_of_range h7 vacant_policyInRange vacant_pulse_byte
  | vacated => exact policyLaw_of_range (Nat.zero_le 8) vacant_policyInRange vacant_pulse_byte
  | _ => exact ⟨h1, h2, h3, h4, h5, h6, h7⟩

/-- Outside WAKING the wake line and its timers are at rest (R31). -/
theorem wakeLaw_of_rest {x : Slot} (hs : x.state ≠ .waking) (line : x.wakeLine = false) (pulse : x.pulseDue = none)
    (timeout : x.timeoutDue = none) : WakeLaw x := by
  rw [WakeLaw, if_neg hs]
  exact ⟨line, pulse, timeout⟩

theorem WakeLaw.rest {x : Slot} (h : WakeLaw x) (hs : x.state ≠ .waking) :
    x.wakeLine = false ∧ x.pulseDue = none ∧ x.timeoutDue = none := by
  rwa [WakeLaw, if_neg hs] at h

/-- An attempt asserts WAKE_n, and its pulse ends before its timeout (R131, R132). -/
theorem wakeLaw_beginAttempt {x : Slot} (now : Nat) (first : Bool) (hs : x.state = .waking) (hp : x.pulseWidth < x.wakeTimeout) :
    WakeLaw (x.beginAttempt now first) := by
  cases first <;> simp [WakeLaw, Slot.beginAttempt, Slot.raise, hs, hp]

theorem Slot.wakeLaw_endProbing {x : Slot} (h : WakeLaw x) (p q : Bool) : WakeLaw (x.endProbing p q) := by
  rcases x.endProbing_cases p q with e | ⟨hs, -, -, e⟩ | ⟨hs, -, -, e⟩ <;> rw [e]
  · exact h
  · obtain ⟨h1, h2, h3⟩ := h.rest (by simp [hs])
    exact wakeLaw_of_rest (by simp [Slot.raise]) h1 h2 h3
  · obtain ⟨h1, h2, h3⟩ := h.rest (by simp [hs])
    exact wakeLaw_of_rest (by simp [Slot.raise]) h1 h2 h3

/-- The wake line and its timers run in WAKING only, the pulse timer the first to expire (R31, R130, R132). -/
theorem SlotChange.wakeLaw {s : State} {n : Fin 16} {y : Slot} (h : SlotChange s n y) (hp : PolicyLaw (s.slot n))
    (hx : WakeLaw (s.slot n)) : WakeLaw y := by
  obtain ⟨-, -, -, -, width, -, -⟩ := hp
  cases h with
  | worked h =>
    cases h with
    | armed staged =>
      obtain ⟨h1, h2, h3⟩ := hx.rest (by simp [staged])
      exact wakeLaw_of_rest (by simp) h1 h2 h3
    | probing still =>
      obtain ⟨h1, h2, h3⟩ := hx.rest (by rcases still with q | ⟨q, -⟩ <;> simp [q])
      exact wakeLaw_of_rest (by simp) h1 h2 h3
    | disarmed armed =>
      obtain ⟨h1, h2, h3⟩ := hx.rest (by simp [armed])
      exact wakeLaw_of_rest (by simp) h1 h2 h3
    | probingStopped probing =>
      obtain ⟨h1, h2, h3⟩ := hx.rest (by simp [probing])
      exact wakeLaw_of_rest (by simp) h1 h2 h3
    | wakeBegun => exact wakeLaw_beginAttempt _ _ rfl width
    | attempted waking => exact wakeLaw_beginAttempt _ _ waking width
    | darkened => exact wakeLaw_of_rest (by simp [Slot.raise]) rfl rfl rfl
    | pulseEnded =>
      by_cases hs : (s.slot n).state = .waking
      · rw [WakeLaw, if_pos hs] at hx
        obtain ⟨h1, -, -⟩ := hx
        rw [WakeLaw, if_pos hs]
        exact ⟨h1, by simp, by simp⟩
      · obtain ⟨-, -, h3⟩ := hx.rest hs
        exact wakeLaw_of_rest hs rfl rfl h3
    | handedBack =>
      refine wakeLaw_of_rest ?_ rfl rfl rfl
      show (if (s.slot n).autoRearm then SlotState.armed else .staged) ≠ .waking
      split <;> decide
    | tentativeLost => exact Slot.wakeLaw_endProbing (x := (s.slot n).claimed .conflict) hx _ _
    | finalWaitEnded => exact Slot.wakeLaw_endProbing hx _ _
    | _ => exact hx
  | opened client m vacant =>
    obtain ⟨h1, h2, h3⟩ := hx.rest (by simp [vacant])
    exact wakeLaw_of_rest (by simp) h1 h2 h3
  | releasing => exact wakeLaw_of_rest (by simp) rfl rfl rfl
  | vacated => exact wakeLaw_of_rest (by simp) rfl rfl rfl
  | listed => exact hx

theorem Act.policyLaws {s t : State} (h : PolicyLaws s) (a : Act s t) : PolicyLaws t :=
  fun n => (a.slotChange n).policyLaw (h n)

theorem Act.wakeLaws {s t : State} (h : PolicyLaws s ∧ WakeLaws s) (a : Act s t) : PolicyLaws t ∧ WakeLaws t :=
  ⟨a.policyLaws h.1, fun n => (a.slotChange n).wakeLaw (h.1 n) (h.2 n)⟩

/-- Properties of the settings and the device attention set alone: what the acts that end a release do not touch. -/
theorem keptByRelease_of_device {P : Settings → Byte → Prop} : KeptByRelease fun s => P s.settings s.deviceAttention where
  moved h k := by rw [k.settings, k.deviceAttention]; exact h
  leaves h _ _ _ _ := h
  ended h := h
  vacated _ h _ := h

theorem Act.attentionLaw {s t : State} (h : AttentionLaw s) (a : Act s t) : AttentionLaw t := by
  obtain ⟨slots, device⟩ := h
  refine ⟨fun n => (a.slotChange n).attention (slots n), ?_⟩
  have release := keptByRelease_of_device (P := fun _ d => d &&& 0xF0#8 = 0)
  cases a with
  | moved h => exact release.moved device h
  | deviceRaised k => exact raise_places device k.flag_places
  | deviceRead => exact BitVec.zero_and
  | handbacksLeft d es => exact release.handbacksLeft device d es
  | releaseAborted r => exact release.finishRelease device _ _
  | blanked h => rw [h.deviceAttention]; exact BitVec.zero_and
  | _ => exact device

theorem settingsLaw_defaults {s : State} (h : s.settings = {}) : SettingsLaw s := by
  unfold SettingsLaw
  rw [h]
  decide

theorem Act.settingsLaw {s t : State} (h : SettingsLaw s) (a : Act s t) : SettingsLaw t := by
  have release := keptByRelease_of_device (P := fun x _ => x.segment.toNat ≤ 4094
    ∧ timingInRange x.probeCount x.probeInterval x.defenceWindow = true ∧ x.slotMask &&& 0x80#8 = 0 ∧ x.deviceMask &&& 0xF0#8 = 0)
  cases a with
  | moved k => exact release.moved h k
  | segmentSet tag range =>
    obtain ⟨-, h⟩ := h
    refine ⟨?_, h⟩
    show (tag.setWidth 12).toNat ≤ 4094
    rw [BitVec.toNat_setWidth]
    omega
  | timingSet count interval window range =>
    obtain ⟨h1, -, h⟩ := h
    exact ⟨h1, range, h⟩
  | masksSet slotMask deviceMask on slot device =>
    obtain ⟨h1, h2, -, -⟩ := h
    exact ⟨h1, h2, slot, device⟩
  | handbacksLeft d es => exact release.handbacksLeft h d es
  | releaseAborted r => exact release.finishRelease h _ _
  | blanked k =>
    rcases k.settings with q | q
    · unfold SettingsLaw; rw [q]; exact h
    · exact settingsLaw_defaults q
  | _ => exact h

end Sys2Proof.Machine

namespace Sys2Proof.Machine

/-! ### Reference counts and pattern lists (R12, R23) -/

/-- The number of slots whose record fulfils `p`. -/
def slotCount (p : Fin 16 → Bool) : Nat := ((List.finRange 16).filter p).length

theorem slotCount_split (p : Fin 16 → Bool) (n : Fin 16) :
    slotCount p = (if p n then 1 else 0) + (((List.finRange 16).erase n).filter p).length := by
  have h := ((List.perm_cons_erase (List.mem_finRange n)).filter p).length_eq
  rw [slotCount, h, List.filter_cons]
  split <;> simp [Nat.add_comm]

/-- One slot that comes to fulfil the property counts one more. -/
theorem slotCount_succ {p q : Fin 16 → Bool} {n : Fin 16} (hp : p n = false) (hq : q n = true) (other : ∀ m, m ≠ n → q m = p m) :
    slotCount q = slotCount p + 1 := by
  have rest : ((List.finRange 16).erase n).filter q = ((List.finRange 16).erase n).filter p :=
    List.filter_congr fun m hm => other m ((List.nodup_finRange 16).mem_erase_iff.mp hm).1
  rw [slotCount_split p n, slotCount_split q n, rest, hp, hq]
  simp [Nat.add_comm]

theorem PatternLaw.of_same {s t : State} (h : PatternLaw s) (lists : ∀ n, (t.slot n).patterns = (s.slot n).patterns)
    (pattern : ∀ p, t.pattern p = s.pattern p) : PatternLaw t := by
  unfold PatternLaw at h ⊢
  simpa only [lists, pattern] using h

/-- The count of a pattern whose place in the lists does not change. -/
theorem slotCount_patterns {s t : State} {p : Fin 32} (h : ∀ n, p ∈ (t.slot n).patterns ↔ p ∈ (s.slot n).patterns) :
    slotCount (fun n => decide (p ∈ (t.slot n).patterns)) = slotCount fun n => decide (p ∈ (s.slot n).patterns) := by
  simp only [h]

theorem PatternLaw.attach {s : State} (h : PatternLaw s) {n : Fin 16} {p : Fin 32} (apart : p ∉ (s.slot n).patterns)
    (defined : (s.pattern p).definition ≠ none) (room : (s.slot n).patterns.length < 4) :
    PatternLaw ((s.setPattern p { s.pattern p with refs := (s.pattern p).refs + 1 }).modSlot n fun x =>
      { x with patterns := x.patterns ++ [p] }) := by
  obtain ⟨refs, used, lists, range⟩ := h
  refine ⟨fun q => ?_, fun q hq => ?_, fun m => ?_, fun q d hd => ?_⟩
  · rw [modSlot_pattern, pattern_setPattern]
    split
    · next hqp =>
      subst hqp
      show (s.pattern p).refs + 1 = slotCount _
      rw [refs p]
      refine (slotCount_succ (n := n) (by simpa using apart) (by simp) fun m hm => ?_).symm
      simp [Ne.symm hm]
    · next hqp =>
      rw [refs q]
      refine (slotCount_patterns fun m => ?_).symm
      rw [slot_modSlot]
      split
      · simp [Ne.symm hqp]
      · exact Iff.rfl
  · rw [modSlot_pattern, pattern_setPattern] at hq ⊢
    split
    · exact defined
    · next hqp => exact used q (by rwa [if_neg hqp] at hq)
  · obtain ⟨nodup, length⟩ := lists m
    rw [slot_modSlot]
    split
    · next hm =>
      subst hm
      exact ⟨List.nodup_append.mpr ⟨nodup, List.nodup_singleton p, by simpa using fun q hq (e : q = p) => apart (e ▸ hq)⟩,
        by simpa using room⟩
    · exact ⟨nodup, length⟩
  · rw [modSlot_pattern, pattern_setPattern] at hd
    split at hd
    · exact range p d hd
    · exact range q d hd

theorem PatternLaw.detach {s : State} (h : PatternLaw s) {n : Fin 16} {p : Fin 32} (listed : p ∈ (s.slot n).patterns) :
    PatternLaw ((s.setPattern p { s.pattern p with refs := (s.pattern p).refs - 1 }).modSlot n fun x =>
      { x with patterns := x.patterns.erase p }) := by
  obtain ⟨refs, used, lists, range⟩ := h
  refine ⟨fun q => ?_, fun q hq => ?_, fun m => ?_, fun q d hd => ?_⟩
  · rw [modSlot_pattern, pattern_setPattern]
    split
    · next hqp =>
      subst hqp
      show (s.pattern p).refs - 1 = slotCount _
      rw [refs p]
      refine Nat.sub_eq_of_eq_add (slotCount_succ (n := n) ?_ (by simpa using listed) fun m hm => ?_)
      · simpa using (lists n).1.not_mem_erase
      · simp [Ne.symm hm]
    · next hqp =>
      rw [refs q]
      refine (slotCount_patterns fun m => ?_).symm
      rw [slot_modSlot]
      split
      · exact List.mem_erase_of_ne (Ne.symm hqp)
      · exact Iff.rfl
  · rw [modSlot_pattern, pattern_setPattern] at hq ⊢
    split
    · next hqp =>
      subst hqp
      rw [if_pos rfl] at hq
      exact used p fun h0 => hq (by rw [h0])
    · next hqp => exact used q (by rwa [if_neg hqp] at hq)
  · obtain ⟨nodup, length⟩ := lists m
    rw [slot_modSlot]
    split
    · exact ⟨nodup.erase p, List.length_erase_le.trans length⟩
    · exact ⟨nodup, length⟩
  · rw [modSlot_pattern, pattern_setPattern] at hd
    split at hd
    · exact range p d hd
    · exact range q d hd

theorem PatternLaw.becomeVacant {s : State} (h : PatternLaw s) (n : Fin 16) : PatternLaw (s.becomeVacant n) := by
  obtain ⟨refs, used, lists, range⟩ := h
  have patterns : ∀ m, ((s.becomeVacant n).slot m).patterns = if n = m then [] else (s.slot m).patterns := fun m => by
    rw [slot_becomeVacant]
    split <;> rfl
  refine ⟨fun q => ?_, fun q hq => ?_, fun m => ?_, fun q d hd => ?_⟩
  · rw [pattern_becomeVacant]
    split
    · next hq =>
      show (s.pattern q).refs - 1 = slotCount _
      rw [refs q]
      refine Nat.sub_eq_of_eq_add (slotCount_succ (n := n) (by simp) (by simpa using hq) fun m hm => ?_)
      simp [Ne.symm hm]
    · next hq =>
      rw [refs q]
      refine (slotCount_patterns fun m => ?_).symm
      rw [patterns]
      split
      · next hm => subst hm; simp [hq]
      · exact Iff.rfl
  · rw [pattern_becomeVacant] at hq ⊢
    split
    · next hm =>
      rw [if_pos hm] at hq
      exact used q fun h0 => hq (by simp [h0])
    · next hm => exact used q (by rwa [if_neg hm] at hq)
  · rw [patterns]
    split
    · exact ⟨List.nodup_nil, Nat.zero_le _⟩
    · exact lists m
  · rw [pattern_becomeVacant] at hd
    split at hd
    · exact range q d hd
    · exact range q d hd

/-- An unused pattern's definition may be replaced (R121, R192). -/
theorem PatternLaw.define {s : State} (h : PatternLaw s) {p : Fin 32} (unused : (s.pattern p).refs = 0) (x : Option PatternDef)
    (hx : ∀ d, x = some d → d.offset ≤ 191 ∧ 1 ≤ d.length ∧ d.length ≤ 32 ∧ ∃ i, i < d.length ∧ d.mask.getLsbD i = true) :
    PatternLaw (s.setPattern p { s.pattern p with definition := x }) := by
  obtain ⟨refs, used, lists, range⟩ := h
  have refsSame : ∀ q, ((s.setPattern p { s.pattern p with definition := x }).pattern q).refs = (s.pattern q).refs := fun q => by
    rw [pattern_setPattern]
    split
    · next hq => subst hq; rfl
    · rfl
  refine ⟨fun q => (refsSame q).trans (refs q), fun q hq => ?_, lists, fun q d hd => ?_⟩
  · rw [refsSame] at hq
    have hqp : p ≠ q := fun e => hq (by rw [← e]; exact unused)
    rw [pattern_setPattern, if_neg hqp]
    exact used q hq
  · rw [pattern_setPattern] at hd
    split at hd
    · exact hx d hd
    · exact range q d hd

/-- A mask that keeps a flag has one among its first `length` positions (R120). -/
theorem exists_flag_of_keptMask {length : Nat} {mask : BitVec 32} (h : keptMask length mask ≠ 0) :
    ∃ i, i < length ∧ (keptMask length mask).getLsbD i = true := by
  by_contra hn
  push Not at hn
  refine h (BitVec.eq_of_getLsbD_eq fun i hi => ?_)
  by_cases hl : i < length
  · simpa using hn i hl
  · simp [keptMask, BitVec.getLsbD_and, BitVec.getLsbD_ofNat, hl]

theorem storedDef_range {offset length : Nat} {mask : BitVec 32} {value : Vector Byte 32}
    (h : patternInRange offset length mask = true) :
    (storedDef offset length mask value).offset ≤ 191 ∧ 1 ≤ (storedDef offset length mask value).length
      ∧ (storedDef offset length mask value).length ≤ 32
      ∧ ∃ i, i < (storedDef offset length mask value).length ∧ (storedDef offset length mask value).mask.getLsbD i = true := by
  simp only [patternInRange, Bool.and_eq_true, decide_eq_true_eq, bne_iff_ne] at h
  obtain ⟨⟨⟨h1, h2⟩, h3⟩, h4⟩ := h
  exact ⟨h1, h2, h3, exists_flag_of_keptMask h4⟩

theorem Blank.patternLaw {s t : State} (h : Blank s t) : PatternLaw t := by
  refine ⟨fun p => ?_, fun p hp => ?_, fun n => ?_, fun p d hd => ?_⟩
  · rw [h.pattern]
    simp [h.slot]
  · rw [h.pattern] at hp
    exact absurd rfl hp
  · rw [h.slot]
    exact ⟨List.nodup_nil, Nat.zero_le _⟩
  · rw [h.pattern] at hd
    cases hd

theorem patternLaw_keptByRelease : KeptByRelease PatternLaw where
  moved h k := h.of_same (fun n => by rw [k.slot]) k.pattern
  leaves h _ _ _ _ := h.of_same (fun n => by rw [slot_leaves]; split <;> rfl) fun _ => rfl
  ended h := h
  vacated n h _ := h.becomeVacant n

theorem Act.patternLaw {s t : State} (h : PatternLaw s) (a : Act s t) : PatternLaw t := by
  have release := patternLaw_keptByRelease
  cases a with
  | moved k => exact release.moved h k
  | slotWork w =>
    refine h.of_same (fun m => ?_) fun _ => rfl
    rw [slot_modSlot]
    split
    · exact (w.kept _).patterns
    · rfl
  | slotOpened n => exact h.of_same (fun m => by rw [slot_modSlot]; split <;> rfl) fun _ => rfl
  | inserted n a e w => exact h.of_same (fun m => by rw [slot_insert]; split <;> rfl) fun _ => rfl
  | removed e => exact h.of_same (fun m => by rw [slot_freeEntries]) fun _ => rfl
  | attached n p _ apart defined room => exact h.attach apart defined room
  | detached n p _ listed => exact h.detach listed
  | patternWritten p offset length mask value unused range =>
    exact h.define unused _ fun d hd => by cases hd; exact storedDef_range range
  | patternCleared p unused => exact h.define unused none fun d hd => by cases hd
  | vacated n idle => exact h.becomeVacant n
  | releaseStarted n => exact h.of_same (fun m => by rw [slot_startRelease]; split <;> rfl) fun _ => rfl
  | handbacksLeft d es => exact release.handbacksLeft h d es
  | releaseAborted r => exact release.finishRelease h _ _
  | blanked k => exact k.patternLaw
  | _ => exact h

/-! ### Releases with announcement (R8, R51) -/

theorem releaseLaw_iff {s : State} : ReleaseLaw s ↔
    (∀ n, (s.slot n).state = .releasing ↔ ∃ r, s.running = some r ∧ r.slot = n)
    ∧ (∀ r, s.running = some r → (s.slot r.slot).outstanding = r.set.length ∧ r.set ≠ [])
    ∧ ∀ n, (s.slot n).state ≠ .releasing → (s.slot n).outstanding = 0 := by
  simp only [ReleaseLaw, running_eq_some]

theorem ReleaseLaw.of_same {s t : State} (h : ReleaseLaw s)
    (state : ∀ n, (t.slot n).state = .releasing ↔ (s.slot n).state = .releasing)
    (outstanding : ∀ n, (t.slot n).outstanding = (s.slot n).outstanding) (running : t.running = s.running) : ReleaseLaw t := by
  rw [releaseLaw_iff] at h ⊢
  simpa only [ne_eq, state, outstanding, running] using h

/-- With no release in progress no slot is RELEASING and no handback is outstanding (R8). -/
theorem releaseLaw_idle {s : State} (idle : s.running = none) :
    ReleaseLaw s ↔ ∀ n, (s.slot n).state ≠ .releasing ∧ (s.slot n).outstanding = 0 := by
  rw [releaseLaw_iff, idle]
  constructor
  · rintro ⟨h1, -, h3⟩ n
    have hn : (s.slot n).state ≠ .releasing := fun q => by simpa using (h1 n).mp q
    exact ⟨hn, h3 n hn⟩
  · intro h
    exact ⟨fun n => by simpa using (h n).1, by simp, fun n _ => (h n).2⟩

/-- A slot becomes VACANT with no release in progress, when no other slot is RELEASING. -/
theorem releaseLaw_becomeVacant {s : State} (idle : s.running = none) (n : Fin 16)
    (h : ∀ m, m ≠ n → (s.slot m).state ≠ .releasing ∧ (s.slot m).outstanding = 0) : ReleaseLaw (s.becomeVacant n) := by
  refine (releaseLaw_idle (s := s.becomeVacant n) idle).mpr fun m => ?_
  rw [slot_becomeVacant]
  split
  · exact ⟨by simp, rfl⟩
  · next hm => exact h m (Ne.symm hm)

/-- The law of a release in progress, but that its handback set may have become empty: what stands while the handbacks of one event
leave the set (R52). -/
def ReleaseStands (s : State) : Prop :=
  (∀ n, (s.slot n).state = .releasing ↔ ∃ r, s.running = some r ∧ r.slot = n)
    ∧ (∀ r, s.running = some r → (s.slot r.slot).outstanding = r.set.length)
    ∧ ∀ n, (s.slot n).state ≠ .releasing → (s.slot n).outstanding = 0

theorem ReleaseLaw.stands {s : State} (h : ReleaseLaw s) : ReleaseStands s := by
  obtain ⟨h1, h2, h3⟩ := releaseLaw_iff.mp h
  exact ⟨h1, fun r hr => (h2 r hr).1, h3⟩

theorem ReleaseStands.leaveSet {s : State} (h : ReleaseStands s) (d : Bool) (e : Fin 96) : ReleaseStands (s.leaveSet d e) := by
  rcases leaveSet_cases d s e with q | ⟨r, r', hr, he, hslot, hset, q⟩ <;> rw [q]
  · exact h
  · obtain ⟨h1, h2, h3⟩ := h
    have running : (s.leaves r').running = some r' := rfl
    have state : ∀ m, ((s.leaves r').slot m).state = (s.slot m).state := fun m => by rw [slot_leaves]; split <;> rfl
    refine ⟨fun n => ?_, fun x hx => ?_, fun n hn => ?_⟩
    · rw [state, h1, hr, running]
      simp [hslot]
    · rw [running] at hx
      cases hx
      rw [slot_leaves, if_pos rfl]
      show (s.slot r'.slot).outstanding - 1 = r'.set.length
      rw [hset, hslot, h2 r hr, List.length_erase_of_mem he]
    · rw [state] at hn
      rw [slot_leaves]
      split
      · show (s.slot n).outstanding - 1 = 0
        rw [h3 n hn]
      · exact h3 n hn

theorem ReleaseStands.finish {s : State} (h : ReleaseStands s) {r : Release} (hr : s.running = some r) (res : Result) :
    ReleaseLaw (s.finishRelease r.slot res) := by
  obtain ⟨h1, -, h3⟩ := h
  have k := finishRelease_moved s r.slot res
  refine (releaseLaw_becomeVacant (releaseEnded_running s) r.slot fun m hm => ?_).of_same (fun n => by rw [k.slot])
    (fun n => by rw [k.slot]) k.running
  have hn : (s.slot m).state ≠ .releasing := fun q => by
    obtain ⟨r', hr', q'⟩ := (h1 m).mp q
    rw [hr] at hr'
    cases hr'
    exact hm q'.symm
  exact ⟨hn, h3 m hn⟩

/-- The release ends as its last handback leaves the set (R53). -/
theorem ReleaseStands.endReleaseIfDone {s : State} (h : ReleaseStands s) : ReleaseLaw s.endReleaseIfDone := by
  cases hr : s.running with
  | none =>
    have q : s.endReleaseIfDone = s := by
      rcases endReleaseIfDone_cases s with q | ⟨r, _, hr', -, -⟩
      · exact q
      · rw [hr] at hr'
        cases hr'
    obtain ⟨h1, h2, h3⟩ := h
    rw [q, releaseLaw_iff]
    exact ⟨h1, fun r hr' => (by rw [hr] at hr'; cases hr'), h3⟩
  | some r =>
    have hm := running_eq_some.mp hr
    by_cases h0 : (s.slot r.slot).outstanding = 0
    · have q : s.endReleaseIfDone = s.finishRelease r.slot (if r.mark then .partialEnd else .ok) := by
        simp [State.endReleaseIfDone, hm, h0]
      rw [q]
      exact h.finish hr _
    · have q : s.endReleaseIfDone = s := by simp [State.endReleaseIfDone, hm, h0]
      obtain ⟨h1, h2, h3⟩ := h
      rw [q, releaseLaw_iff]
      refine ⟨h1, fun r' hr' => ⟨h2 r' hr', fun he => h0 ?_⟩, h3⟩
      rw [hr] at hr'
      cases hr'
      rw [h2 r hr, he]
      rfl

theorem ReleaseLaw.startRelease {s : State} (h : ReleaseLaw s) {n : Fin 16} (idle : s.running = none) (held : s.slotHeld n = true) :
    ReleaseLaw (s.startRelease n) := by
  have rest := (releaseLaw_idle idle).mp h
  have running : (s.startRelease n).running = some { slot := n, set := (s.slot n).addresses.filter s.isHeld } := rfl
  refine releaseLaw_iff.mpr ⟨fun m => ?_, fun r hr => ?_, fun m hm => ?_⟩
  · rw [slot_startRelease, running]
    split
    · next hm => simp [hm]
    · next hm => simpa [hm] using (rest m).1
  · rw [running] at hr
    cases hr
    rw [slot_startRelease, if_pos rfl]
    refine ⟨rfl, fun he => ?_⟩
    obtain ⟨e, hmem, hheld⟩ := List.any_eq_true.mp held
    have hf : e ∈ (s.slot n).addresses.filter s.isHeld := List.mem_filter.mpr ⟨hmem, hheld⟩
    rw [show (s.slot n).addresses.filter s.isHeld = [] from he] at hf
    exact List.not_mem_nil hf
  · rw [slot_startRelease] at hm ⊢
    split at hm
    · exact absurd rfl hm
    · next hne =>
      rw [if_neg hne]
      exact (rest m).2

theorem Act.releaseLaw {s t : State} (h : ReleaseLaw s) (a : Act s t) : ReleaseLaw t := by
  cases a with
  | moved k => exact h.of_same (fun n => by rw [k.slot]) (fun n => by rw [k.slot]) k.running
  | @slotWork n es g f w =>
    have slot : ∀ m, ((s.modBindings es g).modSlot n f).slot m = if n = m then f (s.slot m) else s.slot m :=
      fun m => slot_modSlot _ n m f
    refine h.of_same (fun m => ?_) (fun m => ?_) rfl
    · rw [slot]
      split
      · next hm =>
        subst hm
        rcases w.state with q | q
        · rw [q]
        · simp [q.old.2, q.new.2]
      · rfl
    · rw [slot]
      split
      · exact (w.kept _).outstanding
      · rfl
  | slotOpened n client m _ _ vacant =>
    refine h.of_same (fun k => ?_) (fun k => by rw [slot_modSlot]; split <;> rfl) rfl
    rw [slot_modSlot]
    split
    · next hk => subst hk; simp [vacant]
    · rfl
  | inserted n a e w =>
    exact h.of_same (fun m => by rw [slot_insert]; split <;> rfl) (fun m => by rw [slot_insert]; split <;> rfl) rfl
  | removed e => exact h.of_same (fun m => by rw [slot_freeEntries]) (fun m => by rw [slot_freeEntries]) rfl
  | attached n p =>
    exact h.of_same (fun m => by rw [slot_modSlot]; split <;> rfl) (fun m => by rw [slot_modSlot]; split <;> rfl) rfl
  | detached n p =>
    exact h.of_same (fun m => by rw [slot_modSlot]; split <;> rfl) (fun m => by rw [slot_modSlot]; split <;> rfl) rfl
  | vacated n idle => exact releaseLaw_becomeVacant idle n fun m _ => (releaseLaw_idle idle).mp h m
  | releaseStarted n idle _ held => exact h.startRelease idle held
  | handbacksLeft d es =>
    refine ReleaseStands.endReleaseIfDone ?_
    suffices fold : ∀ u, ReleaseStands u → ReleaseStands (es.foldl (State.leaveSet d) u) from fold s h.stands
    induction es with
    | nil => exact fun _ hu => hu
    | cons e es ih => exact fun u hu => ih _ (hu.leaveSet d e)
  | releaseAborted r hr => exact h.stands.finish hr _
  | blanked k => exact (releaseLaw_idle k.running).mpr fun n => by rw [k.slot]; exact ⟨by simp, rfl⟩
  | _ => exact h

end Sys2Proof.Machine

namespace Sys2Proof.Machine

/-! ### Look-ups (R19) -/

theorem wayMatch_eq_some {s : State} {a : Addr} {w : Option (Fin 96)} {e : Fin 96} :
    s.wayMatch a w = some e ↔ w = some e ∧ ∃ b, s.binding e = some b ∧ b.addr = a := by
  simp [State.wayMatch, Option.filter_eq_some_iff]

/-- A look-up finds an entry of one of the ways of the key's bucket, whose key it is (R19). -/
theorem lookup_found {s : State} {a : Addr} {e : Fin 96} (h : s.lookup a = some e) :
    ∃ w b, s.wayHolds (bucketOf a) w e ∧ s.binding e = some b ∧ b.addr = a := by
  obtain ⟨x, hx, hm⟩ := List.exists_of_findSome?_eq_some h
  obtain ⟨rfl, b, hb, ha⟩ := wayMatch_eq_some.mp hm
  rw [Vector.mem_toList_iff, Vector.mem_iff_getElem] at hx
  obtain ⟨w, hw, hx⟩ := hx
  exact ⟨⟨w, hw⟩, b, hx, hb, ha⟩

/-- A look-up that finds nothing has seen every way of the key's bucket (R19). -/
theorem lookup_none {s : State} {a : Addr} (h : s.lookup a = none) {w : Fin 4} {e : Fin 96} {b : Binding}
    (hw : s.wayHolds (bucketOf a) w e) (hb : s.binding e = some b) : b.addr ≠ a := by
  intro ha
  have hm : some e ∈ (s.bucket (bucketOf a)).toList := by
    rw [Vector.mem_toList_iff, ← hw]
    exact Vector.getElem_mem w.isLt
  have := List.findSome?_eq_none_iff.mp h _ hm
  rw [wayMatch_eq_some.mpr ⟨rfl, b, hb, ha⟩] at this
  cases this

/-! ### The binding records (R12, R17) -/

/-- A change that keeps lists, owners, keys and index ways keeps the law of the records. -/
theorem RecordsLaw.of_keys {s t : State} (h : RecordsLaw s) (addresses : ∀ n, (t.slot n).addresses = (s.slot n).addresses)
    (keys : ∀ e, (t.binding e).map Binding.key = (s.binding e).map Binding.key) (bucket : ∀ k, t.bucket k = s.bucket k)
    (vacant : ∀ n, (t.slot n).state = .vacant → t.slot n = { counters := (t.slot n).counters })
    (running : ∀ r, t.running = some r → r.set.Nodup ∧ ∀ e ∈ r.set, e ∈ (s.slot r.slot).addresses) : RecordsLaw t := by
  obtain ⟨listed, lists, bound, ways, once, apart, -, -⟩ := h
  have old : ∀ {e b}, t.binding e = some b → ∃ c, s.binding e = some c ∧ c.owner = b.owner ∧ c.addr = b.addr := by
    intro e b hb
    have := keys e
    rw [hb, Option.map_some, eq_comm, Option.map_eq_some_iff] at this
    obtain ⟨c, hc, hk⟩ := this
    exact ⟨c, hc, congrArg Prod.fst hk, congrArg Prod.snd hk⟩
  have back : ∀ {e c}, s.binding e = some c → ∃ b, t.binding e = some b ∧ b.owner = c.owner ∧ b.addr = c.addr := by
    intro e c hc
    have := keys e
    rw [hc, Option.map_some, Option.map_eq_some_iff] at this
    obtain ⟨b, hb, hk⟩ := this
    exact ⟨b, hb, congrArg Prod.fst hk, congrArg Prod.snd hk⟩
  have way : ∀ k w e, t.wayHolds k w e ↔ s.wayHolds k w e := fun k w e => by rw [State.wayHolds, State.wayHolds, bucket]
  refine ⟨fun n e => ?_, fun n => addresses n ▸ lists n, fun e b hb => ?_, fun k w e hw => ?_, fun k w v e hw hv => ?_,
    fun e f b c hb hc hk => ?_, vacant, fun r hr => ?_⟩
  · rw [addresses, listed]
    constructor
    · rintro ⟨c, hc, ho⟩
      obtain ⟨b, hb, hbo, -⟩ := back hc
      exact ⟨b, hb, hbo.trans ho⟩
    · rintro ⟨b, hb, ho⟩
      obtain ⟨c, hc, hco, -⟩ := old hb
      exact ⟨c, hc, hco.trans ho⟩
  · obtain ⟨c, hc, -, ha⟩ := old hb
    obtain ⟨usable, w, hw⟩ := bound e c hc
    rw [ha] at usable hw
    exact ⟨usable, w, (way _ _ _).mpr hw⟩
  · obtain ⟨c, hc, hk⟩ := ways k w e ((way _ _ _).mp hw)
    obtain ⟨b, hb, -, ha⟩ := back hc
    exact ⟨b, hb, by rw [ha, hk]⟩
  · exact once k w v e ((way _ _ _).mp hw) ((way _ _ _).mp hv)
  · obtain ⟨b', hb', -, ha⟩ := old hb
    obtain ⟨c', hc', -, hc⟩ := old hc
    exact apart e f b' c' hb' hc' (by rw [ha, hc, hk])
  · rw [addresses]
    exact running r (running_eq_some.mpr hr)

/-- A slot's list holds exactly the entries that it owns (R5, R12). -/
theorem RecordsLaw.mem_addresses {s : State} (h : RecordsLaw s) {n : Fin 16} {e : Fin 96} :
    e ∈ (s.slot n).addresses ↔ ∃ b, s.binding e = some b ∧ b.owner = n := by
  obtain ⟨listed, -⟩ := h
  exact listed n e

theorem RecordsLaw.vacant {s : State} (h : RecordsLaw s) {n : Fin 16} (hn : (s.slot n).state = .vacant) :
    s.slot n = { counters := (s.slot n).counters } := by
  obtain ⟨-, -, -, -, -, -, vacant, -⟩ := h
  exact vacant n hn

theorem RecordsLaw.releaseSet {s : State} (h : RecordsLaw s) {r : Release} (hr : s.running = some r) :
    r.set.Nodup ∧ ∀ e ∈ r.set, e ∈ (s.slot r.slot).addresses := by
  obtain ⟨-, -, -, -, -, -, -, set⟩ := h
  exact set r (running_eq_some.mp hr)

/-- The owner of an entry is not VACANT (R2, R12). -/
theorem RecordsLaw.owner_not_vacant {s : State} (h : RecordsLaw s) {e : Fin 96} {b : Binding} (hb : s.binding e = some b) :
    (s.slot b.owner).state ≠ .vacant := by
  intro hv
  have hm : e ∈ (s.slot b.owner).addresses := h.mem_addresses.mpr ⟨b, hb, rfl⟩
  rw [h.vacant hv] at hm
  cases hm

/-- Entries freed with no release in progress: they leave their lists and ways (R16). -/
theorem RecordsLaw.freeEntries {s : State} (h : RecordsLaw s) (idle : s.running = none) (es : List (Fin 96)) :
    RecordsLaw (s.freeEntries es) := by
  obtain ⟨listed, lists, bound, ways, once, apart, vacant, -⟩ := h
  have kept : ∀ {e b}, (s.freeEntries es).binding e = some b ↔ e ∉ es ∧ s.binding e = some b := by
    intro e b
    rw [binding_freeEntries]
    split
    · next he => simp [he]
    · next he => simp [he]
  have way : ∀ k w e, (s.freeEntries es).wayHolds k w e ↔ s.wayHolds k w e ∧ e ∉ es := fun k w e => by
    rw [State.wayHolds, way_freeEntries, emptyWay_eq_some]
  refine ⟨fun n e => ?_, fun n => ?_, fun e b hb => ?_, fun k w e hw => ?_, fun k w v e hw hv => ?_, fun e f b c hb hc => ?_,
    fun n hn => ?_, fun r hr => ?_⟩
  · simp only [slot_freeEntries, List.mem_filter, listed, kept, Bool.not_eq_true', decide_eq_false_iff_not]
    exact ⟨fun ⟨⟨b, hb, ho⟩, he⟩ => ⟨b, ⟨he, hb⟩, ho⟩, fun ⟨b, ⟨he, hb⟩, ho⟩ => ⟨⟨b, hb, ho⟩, he⟩⟩
  · obtain ⟨nodup, length⟩ := lists n
    rw [slot_freeEntries]
    exact ⟨nodup.filter _, List.length_filter_le _ _ |>.trans length⟩
  · obtain ⟨he, hb⟩ := kept.mp hb
    obtain ⟨usable, w, hw⟩ := bound e b hb
    exact ⟨usable, w, (way _ _ _).mpr ⟨hw, he⟩⟩
  · obtain ⟨hw, he⟩ := (way _ _ _).mp hw
    obtain ⟨b, hb, hk⟩ := ways k w e hw
    exact ⟨b, kept.mpr ⟨he, hb⟩, hk⟩
  · exact once k w v e ((way _ _ _).mp hw).1 ((way _ _ _).mp hv).1
  · exact apart e f b c (kept.mp hb).2 (kept.mp hc).2
  · rw [slot_freeEntries] at hn ⊢
    rw [vacant n hn]
    rfl
  · have : (s.freeEntries es).running = some r := running_of_executing hr
    exact absurd (idle.symm.trans this) (by simp)

theorem RecordsLaw.becomeVacant {s : State} (h : RecordsLaw s) (idle : s.running = none) (n : Fin 16) :
    RecordsLaw (s.becomeVacant n) := by
  have freed := h.freeEntries idle (s.slot n).addresses
  refine freed.of_keys (fun m => ?_) (fun e => ?_) (fun _ => rfl) (fun m hm => ?_) fun r hr => ?_
  · rw [slot_becomeVacant, slot_freeEntries]
    split
    · next q => subst q; simp
    · rfl
  · rw [binding_becomeVacant, binding_freeEntries]
  · rw [slot_becomeVacant] at hm ⊢
    split at hm
    · next q => rw [if_pos q]
    · next q =>
      rw [if_neg q, h.vacant hm]
      rfl
  · exact absurd (idle.symm.trans hr) (by simp)

/-- No entry has a key that a look-up does not find (R12, R19). -/
theorem RecordsLaw.key_of_lookup_none {s : State} (h : RecordsLaw s) {a : Addr} (unknown : s.lookup a = none) {e : Fin 96}
    {b : Binding} (hb : s.binding e = some b) : b.addr ≠ a := by
  rintro rfl
  obtain ⟨-, -, bound, -⟩ := h
  obtain ⟨-, w, hw⟩ := bound e b hb
  exact lookup_none unknown hw hb rfl

/-- An insertion of an unknown key, for a STAGED slot with room, a FREE entry and an empty way (R15, R20). -/
theorem RecordsLaw.insert {s : State} (h : RecordsLaw s) {n : Fin 16} {a : Addr} {e : Fin 96} {w : Fin 4} (usable : a.usable = true)
    (staged : (s.slot n).state = .staged) (room : (s.slot n).addresses.length < 8) (free : s.binding e = none)
    (unknown : s.lookup a = none) (empty : (s.bucket (bucketOf a))[w] = none) : RecordsLaw (s.insert n a e w) := by
  have fresh := fun {c b} => h.key_of_lookup_none (e := c) (b := b) unknown
  obtain ⟨listed, lists, bound, ways, once, apart, vacant, set⟩ := h
  have unlisted : ∀ m, e ∉ (s.slot m).addresses := fun m hm => by
    obtain ⟨b, hb, -⟩ := (listed m e).mp hm
    rw [free] at hb
    cases hb
  have unheld : ∀ k v, ¬ s.wayHolds k v e := fun k v hv => by
    obtain ⟨b, hb, -⟩ := ways k v e hv
    rw [free] at hb
    cases hb
  have way : ∀ k v c, (s.insert n a e w).wayHolds k v c ↔
      (bucketOf a = k ∧ w = v ∧ c = e) ∨ (¬ (bucketOf a = k ∧ w = v) ∧ s.wayHolds k v c) := fun k v c => by
    rw [State.wayHolds, way_insert]
    split
    · next q => simp [q, eq_comm]
    · next q => simp only [q, not_false_eq_true, true_and, State.wayHolds]; tauto
  have other : ∀ {k v c}, s.wayHolds k v c → ¬ (bucketOf a = k ∧ w = v) := by
    rintro k v c hc ⟨rfl, rfl⟩
    rw [State.wayHolds, empty] at hc
    cases hc
  refine ⟨fun m c => ?_, fun m => ?_, fun c b hb => ?_, fun k v c hc => ?_, fun k v u c hv hu => ?_, fun c f b d hb hd hk => ?_,
    fun m hm => ?_, fun r hr => ?_⟩
  · rw [slot_insert, binding_insert]
    by_cases hce : e = c
    · subst hce
      by_cases hm : n = m
      · simp [hm]
      · simp [hm, unlisted m]
    · rw [if_neg hce, ← listed]
      split
      · simp [Ne.symm hce]
      · exact Iff.rfl
  · obtain ⟨nodup, length⟩ := lists m
    rw [slot_insert]
    split
    · next hm =>
      subst hm
      refine ⟨List.nodup_append.mpr ⟨nodup, List.nodup_singleton e, ?_⟩, by simpa using room⟩
      rintro c hc _ hd rfl
      exact unlisted n (by rwa [List.mem_singleton.mp hd] at hc)
    · exact ⟨nodup, length⟩
  · rw [binding_insert] at hb
    split at hb
    · next hce =>
      cases hb
      exact ⟨usable, w, (way _ _ _).mpr (.inl ⟨rfl, rfl, hce.symm⟩)⟩
    · obtain ⟨hu, v, hv⟩ := bound c b hb
      exact ⟨hu, v, (way _ _ _).mpr (.inr ⟨other hv, hv⟩)⟩
  · rw [binding_insert]
    rcases (way _ _ _).mp hc with ⟨hk, -, rfl⟩ | ⟨-, hc⟩
    · exact ⟨_, if_pos rfl, hk⟩
    · have hce : e ≠ c := fun q => unheld k v (q ▸ hc)
      rw [if_neg hce]
      exact ways k v c hc
  · rcases (way _ _ _).mp hv with ⟨-, hv, hce⟩ | ⟨-, hv⟩ <;> rcases (way _ _ _).mp hu with ⟨-, hu, hce'⟩ | ⟨-, hu⟩
    · exact hv.symm.trans hu
    · exact absurd (hce ▸ hu) (unheld _ _)
    · exact absurd (hce' ▸ hv) (unheld _ _)
    · exact once k v u c hv hu
  · rw [binding_insert] at hb hd
    split at hb <;> split at hd
    · next hc hf => exact hc.symm.trans hf
    · cases hb
      exact absurd hk.symm (fresh hd)
    · cases hd
      exact absurd hk (fresh hb)
    · exact apart c f b d hb hd hk
  · rw [slot_insert] at hm ⊢
    split at hm
    · next q => exact absurd (staged.symm.trans (q ▸ hm)) (by simp)
    · next q => rw [if_neg q]; exact vacant m hm
  · obtain ⟨nodup, hr⟩ := set r hr
    refine ⟨nodup, fun c hc => ?_⟩
    rw [slot_insert]
    split
    · exact List.mem_append_left _ (hr c hc)
    · exact hr c hc

theorem Blank.recordsLaw {s t : State} (h : Blank s t) : RecordsLaw t := by
  refine ⟨fun n e => ?_, fun n => ?_, fun e b hb => ?_, fun k w e hw => absurd hw (h.way k w e),
    fun k w v e hw => absurd hw (h.way k w e), fun e f b c hb => ?_, fun n _ => ?_, fun r hr => ?_⟩
  · simp [h.slot, h.binding]
  · rw [h.slot]
    exact ⟨List.nodup_nil, Nat.zero_le _⟩
  · rw [h.binding] at hb; cases hb
  · rw [h.binding] at hb; cases hb
  · rw [h.slot]
  · exact absurd (h.running.symm.trans (running_of_executing hr)) (by simp)

/-- The record of a VACANT slot keeps the vacant values while the slot works: only its counters may be cleared or counted (R2). -/
theorem SlotWork.vacant {s : State} (h : RecordsLaw s) {n : Fin 16} {es : List (Fin 96)} {g : Binding → Binding} {f : Slot → Slot}
    (w : SlotWork s n es g f) (hv : (f (s.slot n)).state = .vacant) :
    f (s.slot n) = { counters := (f (s.slot n)).counters } := by
  have still : (s.slot n).state = .vacant := by
    rcases w.state with q | q
    · rw [← q]; exact hv
    · exact absurd hv q.new.1
  have bound : ∀ {e b}, s.binding e = some b → b.owner ≠ n := fun hb ho => h.owner_not_vacant hb (ho ▸ still)
  have rest := h.vacant still
  cases w with
  | counted c => show Slot.count c (s.slot n) = _; rw [rest]; rfl
  | attentionRead => rw [rest]
  | pulseEnded => rw [rest]
  | policySet l a p t r staged => exact absurd (still.symm.trans staged) (by simp)
  | armed staged => exact absurd (still.symm.trans staged) (by simp)
  | disarmed armed => exact absurd (still.symm.trans armed) (by simp)
  | probing => cases hv
  | probingStopped => cases hv
  | wakeBegun => cases hv
  | attempted waking => exact absurd (still.symm.trans waking) (by simp)
  | darkened => cases hv
  | handedBack standsIn => rw [still] at standsIn; cases standsIn
  | tentativeLost e b hb ho => exact absurd ho (bound hb)
  | heldDefended e b due hb ho => exact absurd ho (bound hb)
  | defendedLost e b hb ho => exact absurd ho (bound hb)
  | probeSent e b due hb ho => exact absurd ho (bound hb)
  | probeOwed e b hb ho => exact absurd ho (bound hb)
  | finalWaitEnded e b hb ho => exact absurd ho (bound hb)
  | defenceEnded e b hb ho => exact absurd ho (bound hb)

theorem key_map_map {g : Binding → Binding} (h : ∀ b, (g b).key = b.key) (x : Option Binding) :
    (x.map g).map Binding.key = x.map Binding.key := by
  cases x <;> simp [h]

theorem key_modBindings (s : State) (es : List (Fin 96)) {g : Binding → Binding} (h : ∀ b, (g b).key = b.key) (e : Fin 96) :
    ((s.modBindings es g).binding e).map Binding.key = (s.binding e).map Binding.key := by
  rw [binding_modBindings]
  split
  · exact key_map_map h _
  · rfl

theorem recordsLaw_keptByRelease : KeptByRelease RecordsLaw where
  moved h k := by
    refine h.of_keys (fun n => by rw [k.slot]) (fun e => ?_) k.bucket (fun n hn => ?_) fun r hr => h.releaseSet (k.running ▸ hr)
    · rcases k.binding e with q | q <;> rw [q]
      exact key_map_map (g := fun b => { b with duty := none }) (fun _ => rfl) _
    · rw [k.slot] at hn ⊢
      exact h.vacant hn
  leaves {s r r'} h hr hslot sub nodup := by
    obtain ⟨hn, hs⟩ := h.releaseSet hr
    refine h.of_keys (fun n => by rw [slot_leaves]; split <;> rfl) (fun _ => rfl) (fun _ => rfl) (fun n hv => ?_) fun x hx => ?_
    · rw [slot_leaves] at hv ⊢
      split at hv
      · next q => rw [if_pos q, h.vacant hv]; rfl
      · next q => rw [if_neg q]; exact h.vacant hv
    · cases hx
      exact ⟨nodup hn, fun e he => hslot ▸ hs e (sub e he)⟩
  ended h := h.of_keys (fun _ => rfl) (fun _ => rfl) (fun _ => rfl) (fun _ hn => h.vacant hn) fun r hr => by cases hr
  vacated n h idle := h.becomeVacant idle n

theorem RecordsLaw.startRelease {s : State} (h : RecordsLaw s) (n : Fin 16) : RecordsLaw (s.startRelease n) := by
  obtain ⟨-, lists, -⟩ := id h
  refine h.of_keys (fun m => by rw [slot_startRelease]; split <;> rfl)
    (fun e => key_modBindings s (s.slot n).addresses (g := Binding.release) (fun _ => rfl) e) (fun _ => rfl) (fun m hm => ?_) fun r hr => ?_
  · rw [slot_startRelease] at hm ⊢
    split at hm
    · cases hm
    · next q => rw [if_neg q]; exact h.vacant hm
  · cases hr
    exact ⟨(lists n).1.filter _, fun e he => List.mem_of_mem_filter he⟩

/-- A slot record that changes beside its list, for a slot that is not VACANT after it. -/
theorem RecordsLaw.modSlot {s : State} (h : RecordsLaw s) {n : Fin 16} {f : Slot → Slot} (list : ∀ x, (f x).addresses = x.addresses)
    (vacant : (f (s.slot n)).state ≠ .vacant) : RecordsLaw (s.modSlot n f) := by
  refine h.of_keys (fun m => by rw [slot_modSlot]; split <;> simp [list]) (fun _ => rfl) (fun _ => rfl) (fun m hm => ?_)
    fun r hr => h.releaseSet hr
  rw [slot_modSlot] at hm ⊢
  split at hm
  · next q => subst q; exact absurd hm vacant
  · next q => rw [if_neg q]; exact h.vacant hm

theorem Act.recordsLaw {s t : State} (h : RecordsLaw s) (a : Act s t) : RecordsLaw t := by
  have release := recordsLaw_keptByRelease
  cases a with
  | moved k => exact release.moved h k
  | @slotWork n es g f w =>
    have slot : ∀ m, ((s.modBindings es g).modSlot n f).slot m = if n = m then f (s.slot m) else s.slot m :=
      fun m => slot_modSlot _ n m f
    refine h.of_keys (fun m => ?_) (fun e => key_modBindings s es w.key e) (fun _ => rfl) (fun m hm => ?_) fun r hr => h.releaseSet hr
    · rw [slot]
      split
      · exact (w.kept _).addresses
      · rfl
    · rw [slot] at hm ⊢
      split at hm
      · next q => subst q; rw [if_pos rfl]; exact w.vacant h hm
      · next q => rw [if_neg q]; exact h.vacant hm
  | timingSet count =>
    exact h.of_keys (fun _ => rfl) (fun e => key_modBindings s _ (g := Binding.trimProbes count) (fun _ => rfl) e) (fun _ => rfl)
      (fun n hn => h.vacant hn) fun r hr => h.releaseSet hr
  | slotOpened n => exact h.modSlot (fun _ => rfl) (by simp)
  | inserted n a e w usable staged room free unknown empty => exact h.insert usable staged room free unknown empty
  | removed e b _ _ idle => exact h.freeEntries idle [e]
  | attached n p staged =>
    have written := h.of_keys (t := s.setPattern p { s.pattern p with refs := (s.pattern p).refs + 1 })
      (fun _ => rfl) (fun _ => rfl) (fun _ => rfl) (fun _ hn => h.vacant hn) fun _ hr => h.releaseSet hr
    exact written.modSlot (fun _ => rfl) (by show (s.slot n).state ≠ _; rw [staged]; decide)
  | detached n p staged =>
    have written := h.of_keys (t := s.setPattern p { s.pattern p with refs := (s.pattern p).refs - 1 })
      (fun _ => rfl) (fun _ => rfl) (fun _ => rfl) (fun _ hn => h.vacant hn) fun _ hr => h.releaseSet hr
    exact written.modSlot (fun _ => rfl) (by show (s.slot n).state ≠ _; rw [staged]; decide)
  | vacated n idle => exact h.becomeVacant idle n
  | releaseStarted n => exact h.startRelease n
  | handbacksLeft d es => exact release.handbacksLeft h d es
  | releaseAborted r => exact release.finishRelease h _ _
  | linkLost =>
    refine h.of_keys (fun _ => rfl) (fun e => key_modBindings s _ (g := Binding.linkLoss) (fun b => ?_) e) (fun _ => rfl)
      (fun n hn => h.vacant hn) fun r hr => h.releaseSet hr
    unfold Binding.linkLoss
    split
    · rfl
    · split <;> rfl
  | blanked k => exact k.recordsLaw
  | _ => exact h

end Sys2Proof.Machine

namespace Sys2Proof.Machine

/-! ### Claim states, duties and timers (R14, R32, R35) -/

/-- The claim state, the duty and the timers of an entry fit one another and the slot state: the part of `ClaimFits` that does not read
the probe count (R32, R58, R70). -/
structure StatesFit (x : SlotState) (b : Binding) : Prop where
  claim : claimFits b.claim x = true
  duty : dutyFits b.claim b.duty = true
  probe : b.probeDue ≠ none → b.claim = .tentative ∧ b.duty = none
  defence : b.defenceDue ≠ none ↔ b.claim = .defended

/-- The probes sent fit the probe count (R14, R58). -/
structure ProbesFit (probeCount : Nat) (b : Binding) : Prop where
  sent : b.probesSent ≤ probeCount
  left : b.claim = .tentative → b.probeDue = none → b.probesSent < probeCount

theorem claimFits_iff {probeCount : Nat} {x : SlotState} {b : Binding} :
    ClaimFits probeCount x b ↔ StatesFit x b ∧ ProbesFit probeCount b :=
  ⟨fun ⟨h1, h2, h3, h4, h5, h6⟩ => ⟨⟨h1, h2, h4, h6⟩, ⟨h3, h5⟩⟩,
    fun ⟨⟨h1, h2, h4, h6⟩, ⟨h3, h5⟩⟩ => ⟨h1, h2, h3, h4, h5, h6⟩⟩

/-- `ClaimLaw` without the probe counts. -/
structure StatesLaw (s : State) : Prop where
  fits : ∀ e b, s.binding e = some b → StatesFit (s.slot b.owner).state b
  beyond : ∀ n, (s.slot n).state ≠ .vacant → (s.slot n).state ≠ .staged →
    (s.slot n).addresses ≠ [] ∧ ((s.slot n).state = .probing → s.slotTentative n = true)

/-- The probe counts of `ClaimLaw`. -/
def ProbesLaw (s : State) : Prop := ∀ e b, s.binding e = some b → ProbesFit s.settings.probeCount b

theorem claimLaw_iff {s : State} : ClaimLaw s ↔ StatesLaw s ∧ ProbesLaw s := by
  constructor
  · rintro ⟨fits, beyond⟩
    exact ⟨⟨fun e b hb => (claimFits_iff.mp (fits e b hb)).1, beyond⟩, fun e b hb => (claimFits_iff.mp (fits e b hb)).2⟩
  · rintro ⟨⟨fits, beyond⟩, probes⟩
    exact ⟨fun e b hb => claimFits_iff.mpr ⟨fits e b hb, probes e b hb⟩, beyond⟩

/-! ### One binding -/

/-- A QUIET entry stands in no slot that stands in for its client (R32). -/
theorem SlotState.not_standsIn_of_quiet {x : SlotState} (h : claimFits .quiet x = true) : x.standsIn = false := by
  cases x
  case staged | armed | releasing => rfl
  all_goals cases h

theorem SlotState.standsIn_of_defends {x : SlotState} (h : x.defends = true) : x.standsIn = true := by
  cases x
  case probing | proxying | waking => rfl
  all_goals cases h

namespace StatesFit

variable {x y : SlotState} {b : Binding}

/-- The slot state changes to one that suits the entry's claim state as well. -/
theorem slotState (h : StatesFit x b) (hy : claimFits b.claim y = true) : StatesFit y b := ⟨hy, h.duty, h.probe, h.defence⟩

/-- An entry without a running probe timer and a deadline. -/
theorem of_stopped (claim : claimFits b.claim x = true) (duty : dutyFits b.claim b.duty = true) (probe : b.probeDue = none)
    (defence : b.defenceDue = none) (undefended : b.claim ≠ .defended) : StatesFit x b :=
  ⟨claim, duty, fun h => absurd probe h, by simp [defence, undefended]⟩

/-- Only a TENTATIVE entry has a running probe timer (R58). -/
theorem probe_stopped (h : StatesFit x b) (hc : b.claim ≠ .tentative) : b.probeDue = none := by
  by_contra hp
  exact hc (h.probe hp).1

/-- Only a DEFENDED entry has a deadline (R64, R68). -/
theorem no_deadline (h : StatesFit x b) (hc : b.claim ≠ .defended) : b.defenceDue = none := by
  by_contra hd
  exact hc (h.defence.mp hd)

theorem dropDuty (h : StatesFit x b) : StatesFit x { b with duty := none } :=
  ⟨h.claim, by show dutyFits b.claim none = true; cases b.claim <;> rfl, fun hp => ⟨(h.probe hp).1, rfl⟩, h.defence⟩

theorem startProbing (b : Binding) : StatesFit .probing b.startProbing := .of_stopped rfl rfl rfl rfl (by simp [Binding.startProbing])

theorem release (b : Binding) : StatesFit .releasing b.release := by
  refine .of_stopped rfl ?_ rfl rfl (by simp [Binding.release])
  show dutyFits .quiet (if b.claim.isHeld then some .handback else none) = true
  split <;> rfl

/-- A TENTATIVE entry stands in a PROBING slot (R32). -/
theorem tentative_probing (h : StatesFit x b) (hc : b.claim = .tentative) : x = .probing := by
  have := h.claim
  rw [hc] at this
  exact of_decide_eq_true this

theorem claim_of_probing (h : StatesFit .probing b) : b.claim ≠ .quiet := by
  intro hc
  have := h.claim
  rw [hc] at this
  cases this

theorem disarm (h : StatesFit .probing b) : StatesFit .staged b.disarm := by
  unfold Binding.disarm
  split
  iterate 3 exact .of_stopped rfl rfl rfl rfl (by simp)
  · next hc => exact absurd hc h.claim_of_probing
  · next hc => exact h.slotState (by rw [hc]; rfl)

theorem handBack (h : StatesFit x b) (hx : x.standsIn = true) (hy : y = .armed ∨ y = .staged) (m : Option AnswerMode) :
    StatesFit y (b.handBack m) := by
  have quiet : claimFits .quiet y = true := by rcases hy with rfl | rfl <;> rfl
  have lost : claimFits .lost y = true := by rcases hy with rfl | rfl <;> rfl
  have owes : dutyFits .quiet (if m = some .own then some .handback else none) = true := by split <;> rfl
  unfold Binding.handBack
  split
  · next hc => exact .of_stopped quiet rfl rfl (h.no_deadline (by simp [hc])) (by simp)
  · next hc => exact .of_stopped quiet owes (h.probe_stopped (by simp [hc])) rfl (by simp)
  · next hc => exact .of_stopped quiet owes (h.probe_stopped (by simp [hc])) rfl (by simp)
  · next hc =>
    exact .of_stopped (by rw [hc]; exact lost) (by rw [hc]; rfl) (h.probe_stopped (by simp [hc])) (h.no_deadline (by simp [hc]))
      (by simp [hc])
  · next hc =>
    have hq := h.claim
    rw [hc] at hq
    rw [SlotState.not_standsIn_of_quiet hq] at hx
    cases hx

theorem endDefence (h : StatesFit x b) (hc : b.claim = .defended) (hy : claimFits .held y = true) : StatesFit y b.endDefence := by
  have duty : dutyFits .held (if b.duty = some .defend then none else b.duty) = true := by
    have := h.duty
    rw [hc] at this
    split
    · rfl
    · next hd =>
      simp only [dutyFits, Bool.or_eq_true, beq_iff_eq, hd, or_false] at this
      rw [this]
      rfl
  rw [Binding.endDefence, if_pos hc]
  exact .of_stopped hy duty (h.probe_stopped (by simp [hc])) rfl (by simp)

/-- At the end of a wake in DARK (R42). -/
theorem darken (h : StatesFit .waking b) : StatesFit .dark b.endDefence := by
  by_cases hc : b.claim = .defended
  · exact h.endDefence hc rfl
  · rw [Binding.endDefence, if_neg hc]
    refine h.slotState ?_
    have := h.claim
    cases q : b.claim
    case defended => exact absurd q hc
    case held | lost => rfl
    all_goals rw [q] at this; cases this

theorem lose (h : StatesFit x b) (hc : b.claim = .tentative ∨ b.claim = .defended) : StatesFit x b.lose := by
  have standsIn : x.standsIn = true := by
    rcases hc with q | q
    · rw [h.tentative_probing q]
      rfl
    · have := h.claim
      rw [q] at this
      exact SlotState.standsIn_of_defends this
  exact .of_stopped (by simp [Binding.lose, claimFits, standsIn]) rfl rfl rfl (by simp [Binding.lose])

theorem defend (h : StatesFit x b) (hc : b.claim = .held) (hx : x.defends = true) (due : Nat) : StatesFit x (b.defend due) :=
  ⟨hx, rfl, fun hp => absurd (h.probe_stopped (by simp [hc])) hp, by simp [Binding.defend]⟩

theorem probeSent (h : StatesFit x b) (hc : b.claim = .tentative) (due : Nat) : StatesFit x (b.probeSent due) := by
  have duty : (if b.duty = some .probe then none else b.duty) = none := by
    have := h.duty
    rw [hc] at this
    split
    · rfl
    · next hd => simpa [dutyFits, hd] using this
  refine ⟨h.claim, ?_, fun _ => ⟨hc, duty⟩, h.defence⟩
  show dutyFits b.claim (if b.duty = some .probe then none else b.duty) = true
  rw [duty, hc]
  rfl

theorem probeAgain (h : StatesFit x b) (hc : b.claim = .tentative) : StatesFit x b.probeAgain :=
  .of_stopped h.claim (by show dutyFits b.claim (some .probe) = true; rw [hc]; rfl) rfl (h.no_deadline (by simp [hc]))
    (by show b.claim ≠ .defended; simp [hc])

theorem endFinalWait (h : StatesFit x b) (hc : b.claim = .tentative) (runs : b.probeDue ≠ none) (m : Option AnswerMode) :
    StatesFit x (b.endFinalWait m) := by
  have hx := h.tentative_probing hc
  subst hx
  refine .of_stopped rfl ?_ rfl (h.no_deadline (by simp [hc])) (by simp [Binding.endFinalWait])
  show dutyFits .held (if m = some .own then some .announce else b.duty) = true
  rw [(h.probe runs).2]
  split <;> rfl

/-- The end-of-probing examination fits every entry that it has examined (R35 to R37). -/
theorem endProbing {z : Slot} {p q : Bool} (h : StatesFit z.state b) (hp : p = false → b.claim ≠ .tentative)
    (hq : q = false → b.claim.isHeld = false) : StatesFit (z.endProbing p q).state b := by
  rcases z.endProbing_cases p q with e | ⟨hz, p0, -, e⟩ | ⟨hz, p0, q0, e⟩ <;> rw [e]
  · exact h
  · rw [hz] at h
    refine h.slotState (y := .proxying) ?_
    cases hc : b.claim
    case quiet => exact absurd hc h.claim_of_probing
    case tentative => exact absurd hc (hp p0)
    all_goals rfl
  · rw [hz] at h
    refine h.slotState (y := .staged) ?_
    have held := hq q0
    cases hc : b.claim
    case quiet => exact absurd hc h.claim_of_probing
    case tentative => exact absurd hc (hp p0)
    case lost => rfl
    all_goals rw [hc] at held; cases held

theorem linkLoss (h : StatesFit x b) : StatesFit x b.linkLoss := by
  unfold Binding.linkLoss
  split
  · next hc =>
    refine .of_stopped h.claim ?_ rfl (h.no_deadline (by simp [hc])) (by simp [hc])
    show dutyFits b.claim (if b.duty = none then some .probe else b.duty) = true
    split
    · rw [hc]
      rfl
    · exact h.duty
  · split
    · exact h.dropDuty
    · exact h

end StatesFit

namespace ProbesFit

variable {k : Nat} {b : Binding}

/-- An entry that is not TENTATIVE, its probes sent as before. -/
theorem settled (h : ProbesFit k b) {c : Binding} (sent : c.probesSent = b.probesSent) (claim : c.claim ≠ .tentative) : ProbesFit k c :=
  ⟨sent ▸ h.sent, fun hc => absurd hc claim⟩

/-- An entry whose probe state is not touched. -/
theorem same (h : ProbesFit k b) {c : Binding} (sent : c.probesSent = b.probesSent) (claim : c.claim = b.claim)
    (probe : c.probeDue = b.probeDue) : ProbesFit k c :=
  ⟨sent ▸ h.sent, by rw [sent, claim, probe]; exact h.left⟩

/-- An entry that starts to probe. -/
theorem start {c : Binding} (pos : 1 ≤ k) (sent : c.probesSent = 0) : ProbesFit k c :=
  ⟨by omega, fun _ _ => by omega⟩

theorem endDefence (h : ProbesFit k b) : ProbesFit k b.endDefence := by
  unfold Binding.endDefence
  split
  · exact h.settled rfl (by simp)
  · exact h

theorem disarm (h : ProbesFit k b) : ProbesFit k b.disarm := by
  unfold Binding.disarm
  split
  iterate 3 exact h.settled rfl (by simp)
  all_goals exact h

theorem handBack (h : ProbesFit k b) (m : Option AnswerMode) : ProbesFit k (b.handBack m) := by
  unfold Binding.handBack
  split
  iterate 3 exact h.settled rfl (by simp)
  · exact h.same rfl rfl rfl
  · exact h

theorem linkLoss (h : ProbesFit k b) (pos : 1 ≤ k) : ProbesFit k b.linkLoss := by
  unfold Binding.linkLoss
  split
  · exact .start pos rfl
  · split
    · exact h.same rfl rfl rfl
    · exact h

end ProbesFit

/-- What work on a slot makes of the probes of an entry. -/
theorem SlotWork.probesFit {s : State} {n : Fin 16} {es : List (Fin 96)} {g : Binding → Binding} {f : Slot → Slot}
    (w : SlotWork s n es g f) (pos : 1 ≤ s.settings.probeCount) {e : Fin 96} {b : Binding} (hb : s.binding e = some b) (he : e ∈ es)
    (h : ProbesFit s.settings.probeCount b) : ProbesFit s.settings.probeCount (g b) := by
  have this_entry : ∀ {c d : Fin 96} {x : Binding}, s.binding c = some x → d ∈ [c] → d = e → x = b := by
    intro c d x hx hd hde
    rw [List.mem_singleton] at hd
    subst hd hde
    exact Option.some.inj (hx.symm.trans hb)
  cases w with
  | probing => exact .start pos rfl
  | probingStopped => exact h.disarm
  | darkened => exact h.endDefence
  | handedBack => exact h.handBack _
  | tentativeLost => exact h.settled rfl (by simp [Binding.lose])
  | heldDefended => exact h.settled rfl (by simp [Binding.defend])
  | defendedLost => exact h.settled rfl (by simp [Binding.lose])
  | probeSent c x due hx _ claim stopped =>
    obtain rfl := this_entry hx he rfl
    exact ⟨h.left claim stopped, fun _ hn => by cases hn⟩
  | probeOwed c x hx _ _ left =>
    obtain rfl := this_entry hx he rfl
    exact ⟨h.sent, fun _ _ => left⟩
  | finalWaitEnded => exact h.settled rfl (by simp [Binding.endFinalWait])
  | defenceEnded => exact h.endDefence
  | _ => cases he

/-! ### Probe counts along an act -/

theorem ProbesLaw.of_each {s t : State} (h : ProbesLaw s) (each : ∀ e c, t.binding e = some c →
    ∃ b, s.binding e = some b ∧ (ProbesFit s.settings.probeCount b → ProbesFit t.settings.probeCount c)) : ProbesLaw t := by
  intro e c hc
  obtain ⟨b, hb, hfit⟩ := each e c hc
  exact hfit (h e b hb)

/-- An entry that is allocated after a change of bindings was allocated before it. -/
theorem of_modBindings {s : State} {es : List (Fin 96)} {g : Binding → Binding} {e : Fin 96} {c : Binding}
    (h : (s.modBindings es g).binding e = some c) : ∃ b, s.binding e = some b ∧ c = if e ∈ es then g b else b := by
  rw [binding_modBindings] at h
  split at h
  · next he =>
    obtain ⟨b, hb, rfl⟩ := Option.map_eq_some_iff.mp h
    exact ⟨b, hb, (if_pos he).symm⟩
  · next he => exact ⟨c, h, (if_neg he).symm⟩

theorem probesLaw_keptByRelease : KeptByRelease ProbesLaw where
  moved h k := h.of_each fun e c hc => by
    rw [k.settings]
    rcases k.binding e with q | q <;> rw [q] at hc
    · exact ⟨c, hc, id⟩
    · obtain ⟨b, hb, rfl⟩ := Option.map_eq_some_iff.mp hc
      exact ⟨b, hb, fun hf => hf.same rfl rfl rfl⟩
  leaves h _ _ _ _ := h
  ended h := h
  vacated n h _ := h.of_each fun e c hc => by
    rw [binding_becomeVacant] at hc
    split at hc
    · cases hc
    · exact ⟨c, hc, id⟩

/-- A change of bindings that keeps each one's probes fitting. -/
theorem ProbesLaw.modBindings {s : State} (h : ProbesLaw s) (es : List (Fin 96)) {g : Binding → Binding}
    (fits : ∀ e b, s.binding e = some b → e ∈ es → ProbesFit s.settings.probeCount b → ProbesFit s.settings.probeCount (g b)) :
    ProbesLaw (s.modBindings es g) := by
  refine h.of_each fun e c hc => ?_
  obtain ⟨b, hb, rfl⟩ := of_modBindings hc
  refine ⟨b, hb, fun hf => ?_⟩
  split
  · next he => exact fits e b hb he hf
  · exact hf

theorem Act.probesLaw {s t : State} (states : StatesLaw s) (pos : 1 ≤ s.settings.probeCount) (h : ProbesLaw s) (a : Act s t) :
    ProbesLaw t := by
  have release := probesLaw_keptByRelease
  cases a with
  | moved k => exact release.moved h k
  | @slotWork n es g f w => exact h.modBindings es fun e b hb he hf => w.probesFit pos hb he hf
  | timingSet count interval window _ still =>
    refine h.of_each fun e c hc => ?_
    obtain ⟨b, hb, rfl⟩ := of_modBindings hc
    refine ⟨b, hb, fun hf => ?_⟩
    rw [if_pos (List.mem_finRange e)]
    exact ⟨Nat.min_le_right _ _, fun hc => absurd ((states.fits e b hb).tentative_probing hc) (still _)⟩
  | inserted n a e w =>
    intro c b hb
    rw [binding_insert] at hb
    split at hb
    · cases hb
      exact .start pos rfl
    · exact h c b hb
  | removed e =>
    refine h.of_each fun c b hb => ?_
    rw [binding_freeEntries] at hb
    split at hb
    · cases hb
    · exact ⟨b, hb, id⟩
  | vacated n idle => exact release.vacated n h idle
  | releaseStarted n =>
    exact h.modBindings (s.slot n).addresses (g := Binding.release) fun e b _ _ hf => hf.settled rfl (by simp [Binding.release])
  | handbacksLeft d es => exact release.handbacksLeft h d es
  | releaseAborted r => exact release.finishRelease h _ _
  | linkLost => exact h.modBindings _ fun e b _ _ hf => hf.linkLoss pos
  | blanked k => exact fun e b hb => by rw [k.binding] at hb; cases hb
  | _ => exact h

/-! ### Claim states along an act -/

theorem slotTentative_iff {s : State} {n : Fin 16} :
    s.slotTentative n = true ↔ ∃ e ∈ (s.slot n).addresses, s.claim e = some .tentative := by
  simp [State.slotTentative, List.any_eq_true]

/-- A change that leaves slot states and lists alone, keeps each binding fitting, and keeps TENTATIVE entries. -/
theorem StatesLaw.of_fits {s t : State} (h : StatesLaw s) (state : ∀ n, (t.slot n).state = (s.slot n).state)
    (addresses : ∀ n, (t.slot n).addresses = (s.slot n).addresses)
    (fits : ∀ e c, t.binding e = some c → ∃ b, s.binding e = some b ∧ b.owner = c.owner ∧ ∀ x, StatesFit x b → StatesFit x c)
    (tentative : ∀ e, s.claim e = some .tentative → t.claim e = some .tentative) : StatesLaw t where
  fits e c hc := by
    obtain ⟨b, hb, ho, hf⟩ := fits e c hc
    rw [state, ← ho]
    exact hf _ (h.fits e b hb)
  beyond n := by
    rw [state, addresses]
    intro hv hs
    obtain ⟨list, probing⟩ := h.beyond n hv hs
    refine ⟨list, fun hp => slotTentative_iff.mpr ?_⟩
    obtain ⟨e, he, hc⟩ := slotTentative_iff.mp (probing hp)
    exact ⟨e, by rwa [addresses], tentative e hc⟩

/-- A change of one slot and of its own entries. -/
theorem StatesLaw.of_slot {s t : State} (h : StatesLaw s) (records : RecordsLaw s) (n : Fin 16)
    (others : ∀ m, m ≠ n → t.slot m = s.slot m)
    (apart : ∀ e b, b.owner ≠ n → (t.binding e = some b ↔ s.binding e = some b))
    (fits : ∀ e b, t.binding e = some b → b.owner = n → StatesFit (t.slot n).state b)
    (beyond : (t.slot n).state ≠ .vacant → (t.slot n).state ≠ .staged →
      (t.slot n).addresses ≠ [] ∧ ((t.slot n).state = .probing → t.slotTentative n = true)) : StatesLaw t where
  fits e b hb := by
    by_cases ho : b.owner = n
    · rw [ho]
      exact fits e b hb ho
    · rw [others _ ho]
      exact h.fits e b ((apart e b ho).mp hb)
  beyond m := by
    by_cases hm : m = n
    · rw [hm]
      exact beyond
    · rw [others m hm]
      intro hv hs
      obtain ⟨list, probing⟩ := h.beyond m hv hs
      refine ⟨list, fun hp => slotTentative_iff.mpr ?_⟩
      obtain ⟨e, he, hc⟩ := slotTentative_iff.mp (probing hp)
      obtain ⟨b, hb, ho⟩ := records.allocated he
      have hb' := (apart e b (ho ▸ hm)).mpr hb
      exact ⟨e, by rwa [others m hm], by rw [claim_of_binding hb', ← claim_of_binding hb, hc]⟩

/-- Work on a slot changes only the slot's own entries. -/
theorem SlotWork.own {s : State} {n : Fin 16} {es : List (Fin 96)} {g : Binding → Binding} {f : Slot → Slot}
    (w : SlotWork s n es g f) (records : RecordsLaw s) {e : Fin 96} {b : Binding} (he : e ∈ es) (hb : s.binding e = some b) :
    b.owner = n := by
  have listed : e ∈ (s.slot n).addresses → b.owner = n := fun hm => by
    obtain ⟨c, hc, ho⟩ := records.allocated hm
    cases hb.symm.trans hc
    exact ho
  have one : ∀ {c x}, s.binding c = some x → x.owner = n → e ∈ [c] → b.owner = n := fun hx ho hm => by
    rw [List.mem_singleton] at hm
    subst hm
    cases hb.symm.trans hx
    exact ho
  cases w with
  | probing => exact listed he
  | probingStopped => exact listed he
  | darkened => exact listed he
  | handedBack => exact listed he
  | tentativeLost _ _ hx ho => exact one hx ho he
  | heldDefended _ _ _ hx ho => exact one hx ho he
  | defendedLost _ _ hx ho => exact one hx ho he
  | probeSent _ _ _ hx ho => exact one hx ho he
  | probeOwed _ _ hx ho => exact one hx ho he
  | finalWaitEnded _ _ hx ho => exact one hx ho he
  | defenceEnded _ _ hx ho => exact one hx ho he
  | _ => cases he

end Sys2Proof.Machine

namespace Sys2Proof.Machine

/-! ### Claim states while a slot works -/

section
variable {s : State} {n : Fin 16}

/-- What the end-of-probing examination finds: the entries of slot `n` after a change of bindings. -/
theorem examined_tentative {u : State} (listed : ∀ e b, u.binding e = some b → b.owner = n → e ∈ (u.slot n).addresses) {e : Fin 96}
    {b : Binding} (hb : u.binding e = some b) (ho : b.owner = n) (h : u.slotTentative n = false) : b.claim ≠ .tentative := by
  intro hc
  have : u.slotTentative n = true := slotTentative_iff.mpr ⟨e, listed e b hb ho, by rw [claim_of_binding hb, hc]⟩
  rw [h] at this
  cases this

theorem examined_held {u : State} (listed : ∀ e b, u.binding e = some b → b.owner = n → e ∈ (u.slot n).addresses) {e : Fin 96}
    {b : Binding} (hb : u.binding e = some b) (ho : b.owner = n) (h : u.slotHeld n = false) : b.claim.isHeld = false := by
  have := List.any_eq_false.mp h e (listed e b hb ho)
  simpa [State.isHeld, claim_of_binding hb] using this

theorem owner_of_key {b c : Binding} (h : b.key = c.key) : b.owner = c.owner := congrArg Prod.fst h

/-- After a change of bindings that keeps keys an entry still stands in its owner's list. -/
theorem RecordsLaw.listed_modBindings (h : RecordsLaw s) (es : List (Fin 96)) {g : Binding → Binding} (key : ∀ b, (g b).key = b.key)
    (e : Fin 96) (b : Binding) (hb : (s.modBindings es g).binding e = some b) (ho : b.owner = n) :
    e ∈ ((s.modBindings es g).slot n).addresses := by
  obtain ⟨c, hc, rfl⟩ := of_modBindings hb
  refine h.mem_addresses.mpr ⟨c, hc, ?_⟩
  rw [← ho]
  split
  · exact (owner_of_key (key c)).symm
  · rfl

/-- The examination after one entry `c` has changed by `g` fits every entry of the slot. -/
theorem statesFit_examined (records : RecordsLaw s) (states : StatesLaw s) {g : Binding → Binding} (key : ∀ b, (g b).key = b.key)
    {c : Fin 96} (changed : ∀ b, s.binding c = some b → StatesFit (s.slot n).state (g b)) {z : Slot} (hz : z.state = (s.slot n).state)
    {e : Fin 96} {b : Binding} (hb : s.binding e = some b) (ho : b.owner = n) :
    StatesFit (z.endProbing ((s.modBindings [c] g).slotTentative n) ((s.modBindings [c] g).slotHeld n)).state
      (if e ∈ [c] then g b else b) := by
  have after : (s.modBindings [c] g).binding e = some (if e ∈ [c] then g b else b) := by
    rw [binding_modBindings, hb]
    split <;> rfl
  have owner : (if e ∈ [c] then g b else b).owner = n := by
    rw [← ho]
    split
    · exact owner_of_key (key b)
    · rfl
  refine StatesFit.endProbing ?_ (examined_tentative (records.listed_modBindings [c] key) after owner)
    (examined_held (records.listed_modBindings [c] key) after owner)
  rw [hz]
  split
  · next he =>
    rw [List.mem_singleton] at he
    exact changed b (he ▸ hb)
  · rw [← ho]
    exact states.fits e b hb

theorem claimFits_armed {c : ClaimState} (h : claimFits c .staged = true) : claimFits c .armed = true := by
  cases c
  case quiet | lost => rfl
  all_goals cases h

theorem claimFits_staged {c : ClaimState} (h : claimFits c .armed = true) : claimFits c .staged = true := by
  cases c
  case quiet | lost => rfl
  all_goals cases h

theorem claimFits_waking {c : ClaimState} {x : SlotState} (hx : x = .proxying ∨ x = .dark) (h : claimFits c x = true) :
    claimFits c .waking = true := by
  cases c
  case held | lost | defended => rfl
  all_goals rcases hx with rfl | rfl <;> cases h

/-- Work on a slot leaves each of its entries fitting it. -/
theorem SlotWork.statesFit {es : List (Fin 96)} {g : Binding → Binding} {f : Slot → Slot} (w : SlotWork s n es g f)
    (records : RecordsLaw s) (states : StatesLaw s) {e : Fin 96} {b : Binding} (hb : s.binding e = some b) (ho : b.owner = n) :
    StatesFit (f (s.slot n)).state (if e ∈ es then g b else b) := by
  have fit : StatesFit (s.slot n).state b := by rw [← ho]; exact states.fits e b hb
  have listed : e ∈ (s.slot n).addresses := records.mem_addresses.mpr ⟨b, hb, ho⟩
  have one : ∀ {c x} {h : Binding → Binding}, s.binding c = some x → (x = b → StatesFit (s.slot n).state (h b)) →
      StatesFit (s.slot n).state (if e ∈ [c] then h b else b) := by
    intro c x h hx hf
    split
    · next he =>
      rw [List.mem_singleton] at he
      subst he
      exact hf (Option.some.inj (hx.symm.trans hb))
    · exact fit
  cases w with
  | armed staged => rw [staged] at fit; exact fit.slotState (claimFits_armed fit.claim)
  | probing => rw [if_pos listed]; exact .startProbing b
  | disarmed armed => rw [armed] at fit; exact fit.slotState (claimFits_staged fit.claim)
  | probingStopped probing => rw [probing] at fit; rw [if_pos listed]; exact fit.disarm
  | wakeBegun c sleeping => exact fit.slotState (claimFits_waking sleeping fit.claim)
  | darkened waking => rw [waking] at fit; rw [if_pos listed]; exact fit.darken
  | handedBack standsIn =>
    rw [if_pos listed]
    refine fit.handBack standsIn ?_ _
    show (if (s.slot n).autoRearm then SlotState.armed else .staged) = _ ∨ (if (s.slot n).autoRearm then SlotState.armed else .staged) = _
    split <;> simp
  | tentativeLost c x hx hxo claim =>
    refine statesFit_examined (g := Binding.lose) (c := c) (z := (s.slot n).claimed .conflict) records states (fun _ => rfl)
      (fun y hy => ?_) rfl hb ho
    obtain rfl := Option.some.inj (hx.symm.trans hy)
    rw [← hxo]
    exact (states.fits c x hx).lose (.inl claim)
  | heldDefended c x due hx _ claim defends => exact one hx fun q => fit.defend (q ▸ claim) defends due
  | defendedLost c x hx _ claim => exact one hx fun q => fit.lose (.inr (q ▸ claim))
  | probeSent c x due hx _ claim => exact one hx fun q => fit.probeSent (q ▸ claim) due
  | probeOwed c x hx _ claim => exact one hx fun q => fit.probeAgain (q ▸ claim)
  | finalWaitEnded c x hx hxo claim runs =>
    have stays : StatesFit (s.slot n).state (x.endFinalWait (s.slot n).mode) := by
      have fit := states.fits c x hx
      rw [hxo] at fit
      exact fit.endFinalWait claim runs _
    refine statesFit_examined (g := Binding.endFinalWait (s.slot n).mode) (c := c) (z := s.slot n) records states (fun _ => rfl)
      (fun y hy => ?_) rfl hb ho
    obtain rfl := Option.some.inj (hx.symm.trans hy)
    exact stays
  | defenceEnded c x hx _ claim =>
    refine one hx fun q => fit.endDefence (q ▸ claim) ?_
    have := fit.claim
    rw [← q, claim] at this
    exact SlotState.standsIn_of_defends this
  | _ => exact fit

/-- The examination leaves a slot PROBING only while it has a TENTATIVE entry (R35). -/
theorem Slot.endProbing_probing {p q : Bool} {z : Slot} (h : (z.endProbing p q).state = .probing) : p = true := by
  by_contra hp
  unfold Slot.endProbing at h
  split at h
  · split at h <;> cases h
  · next hn => exact hn ⟨h, eq_false_of_ne_true hp⟩

/-- A slot that stays in its state keeps its list, and in PROBING a TENTATIVE entry, when the work leaves TENTATIVE entries so. -/
theorem StatesLaw.beyond_of_tentative (states : StatesLaw s) {es : List (Fin 96)} {g : Binding → Binding} {f : Slot → Slot}
    (state : (f (s.slot n)).state = (s.slot n).state) (addresses : (f (s.slot n)).addresses = (s.slot n).addresses)
    (keeps : ∀ e b, s.binding e = some b → e ∈ es → b.claim = .tentative → (g b).claim = .tentative)
    (hv : (f (s.slot n)).state ≠ .vacant) (hs : (f (s.slot n)).state ≠ .staged) : (s.slot n).addresses ≠ []
      ∧ ((f (s.slot n)).state = .probing → ((s.modBindings es g).modSlot n f).slotTentative n = true) := by
  rw [state] at hv hs ⊢
  obtain ⟨list, probing⟩ := states.beyond n hv hs
  refine ⟨list, fun hp => slotTentative_iff.mpr ?_⟩
  obtain ⟨e, he, hc⟩ := slotTentative_iff.mp (probing hp)
  obtain ⟨b, hb, hbc⟩ := Option.map_eq_some_iff.mp hc
  refine ⟨e, by rw [slot_modSlot, if_pos rfl]; exact addresses.symm ▸ he, ?_⟩
  rw [modSlot_claim, State.claim, binding_modBindings, hb]
  split
  · next hm => rw [Option.map_some, Option.map_some, keeps e b hb hm hbc]
  · rw [Option.map_some, hbc]

/-- A slot beyond STAGED has entries after work on it, and a PROBING one a TENTATIVE entry (R32, R35). -/
theorem SlotWork.beyond {es : List (Fin 96)} {g : Binding → Binding} {f : Slot → Slot} (w : SlotWork s n es g f)
    (records : RecordsLaw s) (states : StatesLaw s) (hv : (f (s.slot n)).state ≠ .vacant) (hs : (f (s.slot n)).state ≠ .staged) :
    (s.slot n).addresses ≠ []
      ∧ ((f (s.slot n)).state = .probing → ((s.modBindings es g).modSlot n f).slotTentative n = true) := by
  have kept := (w.kept (s.slot n)).addresses
  have one : ∀ {c x}, s.binding c = some x → x.claim ≠ .tentative →
      ∀ e b, s.binding e = some b → e ∈ [c] → ¬ b.claim = .tentative := by
    intro c x hx hn e b hb he hc
    rw [List.mem_singleton] at he
    subst he
    cases hx.symm.trans hb
    exact hn hc
  have stays := fun state keeps => states.beyond_of_tentative (es := es) (g := g) (f := f) state kept keeps hv hs
  have still : (s.slot n).state ≠ .vacant → (s.slot n).state ≠ .staged → (s.slot n).addresses ≠ [] :=
    fun h1 h2 => (states.beyond n h1 h2).1
  have examined : ∀ {z : Slot}, z.state = (s.slot n).state → (z.endProbing ((s.modBindings es g).slotTentative n)
      ((s.modBindings es g).slotHeld n)) = f (s.slot n) → (s.slot n).addresses ≠ []
      ∧ ((f (s.slot n)).state = .probing → ((s.modBindings es g).modSlot n f).slotTentative n = true) := by
    intro z hz hf
    refine ⟨?_, fun hp => ?_⟩
    · rcases Slot.endProbing_cases ((s.modBindings es g).slotTentative n) ((s.modBindings es g).slotHeld n) z with
        q | ⟨q, -, -, -⟩ | ⟨q, -, -, -⟩
      · have : (f (s.slot n)).state = (s.slot n).state := by rw [← hf, q, hz]
        rw [this] at hv hs
        exact still hv hs
      · rw [hz] at q
        exact still (by simp [q]) (by simp [q])
      · rw [hz] at q
        exact still (by simp [q]) (by simp [q])
    · rw [← hf] at hp
      refine (slotTentative_congr (s := s.modBindings es g) ?_ fun e => ?_).trans (Slot.endProbing_probing hp)
      · rw [slot_modSlot, if_pos rfl]
        exact kept
      · rfl
  cases w with
  | armed _ can => exact ⟨can.1, fun h => by cases h⟩
  | probing state =>
    have list : (s.slot n).addresses ≠ [] := by
      rcases state with q | ⟨-, can⟩
      · exact still (by simp [q]) (by simp [q])
      · exact can.1
    refine ⟨list, fun _ => slotTentative_iff.mpr ?_⟩
    obtain ⟨e, he⟩ := List.exists_mem_of_ne_nil _ list
    obtain ⟨b, hb, -⟩ := records.allocated he
    refine ⟨e, by rw [slot_modSlot, if_pos rfl]; exact he, ?_⟩
    rw [modSlot_claim, State.claim, binding_modBindings, if_pos he, hb]
    rfl
  | disarmed => exact absurd rfl hs
  | probingStopped => exact absurd rfl hs
  | wakeBegun c sleeping =>
    refine ⟨?_, fun h => by cases h⟩
    rcases sleeping with q | q
    · exact still (by simp [q]) (by simp [q])
    · exact still (by simp [q]) (by simp [q])
  | darkened waking => exact ⟨still (by simp [waking]) (by simp [waking]), fun h => by cases h⟩
  | handedBack standsIn =>
    refine ⟨still (fun q => ?_) fun q => ?_, fun h => ?_⟩
    · rw [q] at standsIn; cases standsIn
    · rw [q] at standsIn; cases standsIn
    · have : ∀ a : Bool, (if a then SlotState.armed else .staged) ≠ .probing := by decide
      exact absurd h (this _)
  | tentativeLost => exact examined (z := (s.slot n).claimed .conflict) rfl rfl
  | finalWaitEnded => exact examined (z := s.slot n) rfl rfl
  | heldDefended c x due hx _ claim => exact stays rfl fun e b hb he hc => absurd hc (one hx (by simp [claim]) e b hb he)
  | defendedLost c x hx _ claim => exact stays rfl fun e b hb he hc => absurd hc (one hx (by simp [claim]) e b hb he)
  | probeSent => exact stays rfl fun _ _ _ _ hc => hc
  | probeOwed => exact stays rfl fun _ _ _ _ hc => hc
  | defenceEnded c x hx _ claim => exact stays rfl fun e b hb he hc => absurd hc (one hx (by simp [claim]) e b hb he)
  | _ => exact stays rfl fun _ _ _ he => by cases he

/-! ### Claim states along an act -/

theorem StatesLaw.slotWork {es : List (Fin 96)} {g : Binding → Binding} {f : Slot → Slot} (h : StatesLaw s) (records : RecordsLaw s)
    (w : SlotWork s n es g f) : StatesLaw ((s.modBindings es g).modSlot n f) := by
  have slot : ∀ m, ((s.modBindings es g).modSlot n f).slot m = if n = m then f (s.slot m) else s.slot m :=
    fun m => slot_modSlot _ n m f
  refine h.of_slot records n (fun m hm => by rw [slot, if_neg (Ne.symm hm)]) (fun e b ho => ?_) (fun e c hc ho => ?_) ?_
  · constructor
    · intro hb
      obtain ⟨c, hc, rfl⟩ := of_modBindings hb
      split at ho
      · next he =>
        rw [owner_of_key (w.key c)] at ho
        exact absurd (w.own records he hc) ho
      · next he => rw [if_neg he]; exact hc
    · intro hb
      rw [modSlot_binding, binding_modBindings, if_neg fun he => ho (w.own records he hb)]
      exact hb
  · obtain ⟨b, hb, rfl⟩ := of_modBindings hc
    rw [slot, if_pos rfl]
    refine w.statesFit records h hb ?_
    rw [← ho]
    split
    · exact (owner_of_key (w.key b)).symm
    · rfl
  · rw [slot, if_pos rfl, (w.kept _).addresses]
    exact w.beyond records h

theorem StatesLaw.becomeVacant (h : StatesLaw s) (records : RecordsLaw s) (n : Fin 16) : StatesLaw (s.becomeVacant n) := by
  obtain ⟨⟨vacant, others, -⟩, -⟩ := becomeVacant_vacated records n
  refine h.of_slot records n others (fun e b ho => ?_) (fun e b hb ho => ?_) fun hv => absurd (by rw [vacant]) hv
  · rw [binding_becomeVacant]
    split
    · next he =>
      obtain ⟨c, hc, hco⟩ := records.allocated he
      simp only [reduceCtorEq, hc, Option.some.injEq, false_iff]
      exact fun q => ho (q ▸ hco)
    · exact Iff.rfl
  · rw [binding_becomeVacant] at hb
    split at hb
    · cases hb
    · next he => exact absurd (records.mem_addresses.mpr ⟨b, hb, ho⟩) he

theorem statesLaw_keptByRelease : KeptByRelease fun s => RecordsLaw s ∧ StatesLaw s where
  moved := fun ⟨records, h⟩ k => by
    refine ⟨recordsLaw_keptByRelease.moved records k, h.of_fits (fun n => by rw [k.slot]) (fun n => by rw [k.slot]) (fun e c hc => ?_)
      fun e he => by rw [k.claim, he]⟩
    rcases k.binding e with q | q <;> rw [q] at hc
    · exact ⟨c, hc, rfl, fun _ => id⟩
    · obtain ⟨b, hb, rfl⟩ := Option.map_eq_some_iff.mp hc
      exact ⟨b, hb, rfl, fun _ hf => hf.dropDuty⟩
  leaves := fun ⟨records, h⟩ hr hslot sub nodup =>
    ⟨recordsLaw_keptByRelease.leaves records hr hslot sub nodup, h.of_fits (fun n => by rw [slot_leaves]; split <;> rfl)
      (fun n => by rw [slot_leaves]; split <;> rfl) (fun _ c hc => ⟨c, hc, rfl, fun _ => id⟩) fun _ => id⟩
  ended := fun ⟨records, h⟩ => ⟨recordsLaw_keptByRelease.ended records, ⟨h.fits, h.beyond⟩⟩
  vacated n := fun ⟨records, h⟩ idle => ⟨records.becomeVacant idle n, h.becomeVacant records n⟩

theorem StatesLaw.openSlot (h : StatesLaw s) (records : RecordsLaw s) {f : Slot → Slot} (vacant : (s.slot n).state = .vacant)
    (staged : (f (s.slot n)).state = .staged) : StatesLaw (s.modSlot n f) := by
  refine h.of_slot records n (fun m hm => by rw [slot_modSlot, if_neg (Ne.symm hm)]) (fun _ _ _ => Iff.rfl) (fun e b hb ho => ?_)
    fun _ hs => absurd (by rw [slot_modSlot, if_pos rfl]; exact staged) hs
  exact absurd (ho ▸ vacant) (records.owner_not_vacant hb)

theorem StatesLaw.insert (h : StatesLaw s) (records : RecordsLaw s) {a : Addr} {e : Fin 96} {w : Fin 4}
    (staged : (s.slot n).state = .staged) (free : s.binding e = none) : StatesLaw (s.insert n a e w) := by
  have state : ((s.insert n a e w).slot n).state = .staged := by rw [slot_insert, if_pos rfl]; exact staged
  refine h.of_slot records n (fun m hm => by rw [slot_insert, if_neg (Ne.symm hm)]) (fun c b ho => ?_) (fun c b hb ho => ?_)
    fun _ hs => absurd state hs
  · rw [binding_insert]
    split
    · next hc =>
      subst hc
      simp only [Option.some.injEq, free, reduceCtorEq, iff_false]
      rintro rfl
      exact ho rfl
    · exact Iff.rfl
  · rw [state]
    rw [binding_insert] at hb
    split at hb
    · cases hb
      exact .of_stopped rfl rfl rfl rfl (by simp)
    · rw [← staged, ← ho]
      exact h.fits c b hb

theorem StatesLaw.remove (h : StatesLaw s) (records : RecordsLaw s) {e : Fin 96} {b : Binding} (hb : s.binding e = some b)
    (staged : (s.slot b.owner).state = .staged) : StatesLaw (s.freeEntries [e]) := by
  have slot : ∀ m, ((s.freeEntries [e]).slot m).state = (s.slot m).state := fun m => by rw [slot_freeEntries]
  refine h.of_slot records b.owner (fun m hm => ?_) (fun c d ho => ?_) (fun c d hd ho => ?_)
    fun _ hs => absurd ((slot _).trans staged) hs
  · have apart : e ∉ (s.slot m).addresses := fun he => by
      obtain ⟨c, hc, hco⟩ := records.allocated he
      cases hb.symm.trans hc
      exact hm hco.symm
    have list : (s.slot m).addresses.filter (fun c => !decide (c ∈ [e])) = (s.slot m).addresses :=
      List.filter_eq_self.mpr fun c hc => by simpa using fun q : c = e => apart (q ▸ hc)
    rw [slot_freeEntries, list]
  · rw [binding_freeEntries]
    split
    · next hc =>
      rw [List.mem_singleton] at hc
      subst hc
      simp only [reduceCtorEq, hb, Option.some.injEq, false_iff]
      rintro rfl
      exact ho rfl
    · exact Iff.rfl
  · rw [slot, ← ho]
    rw [binding_freeEntries] at hd
    split at hd
    · cases hd
    · exact h.fits c d hd

theorem StatesLaw.startRelease (h : StatesLaw s) (records : RecordsLaw s) (held : s.slotHeld n = true) :
    StatesLaw (s.startRelease n) := by
  have binding : ∀ {e b}, (s.startRelease n).binding e = some b → ∃ c, s.binding e = some c
      ∧ b = if e ∈ (s.slot n).addresses then c.release else c := fun hb => of_modBindings hb
  have owner : ∀ (b : Binding) (e : Fin 96), (if e ∈ (s.slot n).addresses then b.release else b).owner = b.owner := fun b e => by
    split <;> rfl
  refine h.of_slot records n (fun m hm => by rw [slot_startRelease, if_neg (Ne.symm hm)]) (fun e b ho => ?_) (fun e b hb ho => ?_)
    fun _ _ => ?_
  · constructor
    · intro hb
      obtain ⟨c, hc, rfl⟩ := binding hb
      rw [owner] at ho
      rw [if_neg fun he => ho (by
        obtain ⟨d, hd, hdo⟩ := records.allocated he
        cases hc.symm.trans hd
        exact hdo)]
      exact hc
    · intro hb
      refine (binding_modBindings s _ e Binding.release).trans ?_
      rw [if_neg fun he => ho (by
        obtain ⟨d, hd, hdo⟩ := records.allocated he
        cases hb.symm.trans hd
        exact hdo)]
      exact hb
  · obtain ⟨c, hc, rfl⟩ := binding hb
    rw [owner] at ho
    rw [if_pos (records.mem_addresses.mpr ⟨c, hc, ho⟩), slot_startRelease, if_pos rfl]
    exact .release c
  · rw [slot_startRelease, if_pos rfl]
    refine ⟨fun he => ?_, fun hp => by cases hp⟩
    obtain ⟨e, hm, -⟩ := List.any_eq_true.mp held
    rw [show (s.slot n).addresses = [] from he] at hm
    cases hm

theorem Blank.statesLaw {t : State} (h : Blank s t) : StatesLaw t where
  fits e b hb := by rw [h.binding] at hb; cases hb
  beyond m hv := absurd (by rw [h.slot]) hv

theorem Act.statesLaw {t : State} (records : RecordsLaw s) (h : StatesLaw s) (a : Act s t) : StatesLaw t := by
  have release := statesLaw_keptByRelease
  have same : ∀ {n : Fin 16} {f : Slot → Slot} {u : State}, StatesLaw u →
      (∀ x, (f x).state = x.state ∧ (f x).addresses = x.addresses) → StatesLaw (u.modSlot n f) := fun hu hf => by
    refine hu.of_fits (fun m => ?_) (fun m => ?_) (fun _ c hc => ⟨c, hc, rfl, fun _ => id⟩) fun _ => id
    · rw [slot_modSlot]
      split
      · exact (hf _).1
      · rfl
    · rw [slot_modSlot]
      split
      · exact (hf _).2
      · rfl
  cases a with
  | moved k => exact (release.moved ⟨records, h⟩ k).2
  | slotWork w => exact h.slotWork records w
  | timingSet count =>
    refine h.of_fits (fun _ => rfl) (fun _ => rfl) (fun e c hc => ?_) fun e he => ?_
    · obtain ⟨b, hb, rfl⟩ := of_modBindings hc
      rw [if_pos (List.mem_finRange e)]
      exact ⟨b, hb, rfl, fun _ hf => ⟨hf.claim, hf.duty, hf.probe, hf.defence⟩⟩
    · obtain ⟨b, hb, hc⟩ := Option.map_eq_some_iff.mp he
      show (s.modBindings (List.finRange 96) (Binding.trimProbes count)).claim e = _
      rw [State.claim, binding_modBindings, if_pos (List.mem_finRange e), hb]
      exact congrArg some hc
  | slotOpened n client m _ _ vacant => exact h.openSlot records vacant rfl
  | inserted n a e w _ staged _ free => exact h.insert records staged free
  | removed e b hb staged => exact h.remove records hb staged
  | attached n p => exact same ⟨h.fits, h.beyond⟩ fun _ => ⟨rfl, rfl⟩
  | detached n p => exact same ⟨h.fits, h.beyond⟩ fun _ => ⟨rfl, rfl⟩
  | vacated n => exact h.becomeVacant records n
  | releaseStarted n _ _ held => exact h.startRelease records held
  | handbacksLeft d es => exact (release.handbacksLeft ⟨records, h⟩ d es).2
  | releaseAborted r => exact (release.finishRelease ⟨records, h⟩ _ _).2
  | linkLost =>
    refine h.of_fits (fun _ => rfl) (fun _ => rfl) (fun e c hc => ?_) fun e he => ?_
    · obtain ⟨b, hb, rfl⟩ := of_modBindings hc
      rw [if_pos (List.mem_finRange e)]
      refine ⟨b, hb, ?_, fun _ hf => hf.linkLoss⟩
      unfold Binding.linkLoss
      split
      · rfl
      · split <;> rfl
    · obtain ⟨b, hb, hc⟩ := Option.map_eq_some_iff.mp he
      rw [State.claim, binding_modBindings, if_pos (List.mem_finRange e), hb, Option.map_some, Option.map_some, Binding.linkLoss, if_pos hc]
      exact congrArg some hc
  | blanked k => exact k.statesLaw
  | _ => exact ⟨h.fits, h.beyond⟩

end

end Sys2Proof.Machine

namespace Sys2Proof.Machine

/-! ### Client and station addresses (R3, R26) -/

/-- A change that keeps client addresses, modes and the station address, and takes no OWN-mode slot out of STAGED without one. -/
theorem HostLaw.of_same {s t : State} (h : HostLaw s) (client : ∀ n, (t.slot n).client = (s.slot n).client)
    (mode : ∀ n, (t.slot n).mode = (s.slot n).mode) (station : t.settings.station = s.settings.station)
    (vacant : ∀ n, (t.slot n).state = .vacant ↔ (s.slot n).state = .vacant)
    (leaves : ∀ n, (t.slot n).state ≠ .staged →
      (s.slot n).state ≠ .staged ∨ ((s.slot n).mode = some .own → s.settings.station ≠ 0)) : HostLaw t := by
  obtain ⟨present, usable, apart, group, own⟩ := h
  simp only [HostLaw, client, mode, station, vacant]
  refine ⟨present, usable, apart, group, fun n hm hs => ?_⟩
  rcases leaves n hs with q | q
  · exact own n hm q
  · exact q hm

/-- A change of other fields than states, client addresses and modes. -/
theorem HostLaw.of_sameStates {s t : State} (h : HostLaw s) (client : ∀ n, (t.slot n).client = (s.slot n).client)
    (mode : ∀ n, (t.slot n).mode = (s.slot n).mode) (station : t.settings.station = s.settings.station)
    (state : ∀ n, (t.slot n).state = (s.slot n).state) : HostLaw t :=
  h.of_same client mode station (fun n => by rw [state]) fun n hn => .inl (state n ▸ hn)

/-- A slot is VACANT exactly when it has no mode (R3). -/
theorem HostLaw.vacant_iff {s : State} (h : HostLaw s) (n : Fin 16) : (s.slot n).mode = none ↔ (s.slot n).state = .vacant := by
  obtain ⟨present, -⟩ := h
  exact (present n).2

theorem HostLaw.becomeVacant {s : State} (h : HostLaw s) (n : Fin 16) : HostLaw (s.becomeVacant n) := by
  obtain ⟨present, usable, apart, group, own⟩ := h
  have gone : (s.becomeVacant n).slot n = { counters := (s.slot n).counters } := by rw [slot_becomeVacant, if_pos rfl]
  have other : ∀ m, m ≠ n → ((s.becomeVacant n).slot m).client = (s.slot m).client
      ∧ ((s.becomeVacant n).slot m).mode = (s.slot m).mode ∧ ((s.becomeVacant n).slot m).state = (s.slot m).state := fun m hm => by
    rw [slot_becomeVacant, if_neg (Ne.symm hm)]
    exact ⟨rfl, rfl, rfl⟩
  have client : ∀ m a, ((s.becomeVacant n).slot m).client = some a → (s.slot m).client = some a := fun m a hc => by
    by_cases hm : m = n
    · rw [hm, gone] at hc
      cases hc
    · rwa [(other m hm).1] at hc
  refine ⟨fun m => ?_, fun m a hc => usable m a (client m a hc), fun m k a hm hk => apart m k a (client m a hm) (client k a hk),
    group, fun m hm hs => ?_⟩
  · by_cases hm : m = n
    · rw [hm, gone]
      exact ⟨by simp, by simp⟩
    · obtain ⟨h1, h2, h3⟩ := other m hm
      rw [h1, h2, h3]
      exact present m
  · by_cases hn : m = n
    · rw [hn, gone] at hm
      cases hm
    · obtain ⟨-, h2, h3⟩ := other m hn
      rw [h2] at hm
      rw [h3] at hs
      exact own m hm hs

theorem hostLaw_keptByRelease : KeptByRelease HostLaw where
  moved h k := h.of_sameStates (fun n => by rw [k.slot]) (fun n => by rw [k.slot]) (by rw [k.settings]) fun n => by rw [k.slot]
  leaves h _ _ _ _ := h.of_sameStates (fun n => by rw [slot_leaves]; split <;> rfl) (fun n => by rw [slot_leaves]; split <;> rfl) rfl
    fun n => by rw [slot_leaves]; split <;> rfl
  ended h := h
  vacated n h _ := h.becomeVacant n

/-- SET_STATION: no OWN-mode slot needs the old address, and no client has the new one (R26, R170). -/
theorem HostLaw.setStation {s : State} (h : HostLaw s) {a : LinkAddr} (group : isGroup a = false)
    (unused : ∀ n, (s.slot n).usesStation = false) (armed : a = 0 → ∀ n, ((s.slot n).isOwn && (s.slot n).state == .armed) = false)
    (fresh : a ≠ 0 → ∀ n, (s.slot n).client ≠ some a) : HostLaw { s with settings := { s.settings with station := a } } := by
  have vacant := h.vacant_iff
  obtain ⟨present, usable, apart, -, -⟩ := h
  refine ⟨present, fun n c hc => ?_, apart, group, fun n hm hs h0 => ?_⟩
  · obtain ⟨nonzero, one, -⟩ := usable n c hc
    exact ⟨nonzero, one, fun ha q => fresh ha n (hc.trans (congrArg some q))⟩
  · have own : (s.slot n).mode = some .own := hm
    have staged : (s.slot n).state ≠ .staged := hs
    have isOwn : (s.slot n).isOwn = true := by rw [Slot.isOwn]; exact beq_iff_eq.mpr own
    have used := unused n
    have held := armed h0 n
    rw [Slot.usesStation, isOwn] at used
    rw [isOwn] at held
    have occupied : (s.slot n).state ≠ .vacant := fun q => by
      rw [(vacant n).mpr q] at own
      cases own
    revert used held occupied staged
    cases (s.slot n).state <;> decide

/-- OPEN_SLOT: a usable client address that is no other slot's and not the station address (R3, R176). -/
theorem HostLaw.openSlot {s : State} (h : HostLaw s) {n : Fin 16} {a : LinkAddr} {m : AnswerMode} {f : Slot → Slot} (nonzero : a ≠ 0)
    (group : isGroup a = false) (fresh : ∀ k, (s.slot k).client ≠ some a) (away : s.settings.station ≠ 0 → a ≠ s.settings.station)
    (client : (f (s.slot n)).client = some a) (mode : (f (s.slot n)).mode = some m) (staged : (f (s.slot n)).state = .staged) :
    HostLaw (s.modSlot n f) := by
  obtain ⟨present, usable, apart, station, own⟩ := h
  have opened : (s.modSlot n f).slot n = f (s.slot n) := by rw [slot_modSlot, if_pos rfl]
  have other : ∀ {k}, k ≠ n → (s.modSlot n f).slot k = s.slot k := fun hk => by rw [slot_modSlot, if_neg (Ne.symm hk)]
  refine ⟨fun k => ?_, fun k c hc => ?_, fun k l c hk hl => ?_, station, fun k hm hs => ?_⟩
  · by_cases q : k = n
    · rw [q, opened, client, mode, staged]
      simp
    · rw [other q]
      exact present k
  · by_cases q : k = n
    · rw [q, opened, client] at hc
      cases hc
      exact ⟨nonzero, group, away⟩
    · rw [other q] at hc
      exact usable k c hc
  · by_cases q : k = n <;> by_cases r : l = n
    · rw [q, r]
    · rw [q, opened, client] at hk
      rw [other r] at hl
      cases hk
      exact absurd hl (fresh l)
    · rw [r, opened, client] at hl
      rw [other q] at hk
      cases hl
      exact absurd hk (fresh k)
    · rw [other q] at hk
      rw [other r] at hl
      exact apart k l c hk hl
  · by_cases q : k = n
    · rw [q, opened] at hs
      exact absurd staged hs
    · rw [other q] at hm hs
      exact own k hm hs

/-- A slot with a held entry is beyond STAGED (R32). -/
theorem StatesLaw.standsIn_of_held {s : State} (h : StatesLaw s) (records : RecordsLaw s) {n : Fin 16} (held : s.slotHeld n = true) :
    (s.slot n).state.standsIn = true := by
  obtain ⟨e, hm, he⟩ := List.any_eq_true.mp held
  obtain ⟨b, hb, ho⟩ := records.allocated hm
  have fit := (h.fits e b hb).claim
  rw [ho] at fit
  have hc : b.claim.isHeld = true := by simpa [State.isHeld, claim_of_binding hb] using he
  cases q : b.claim with
  | held => rw [q] at fit; exact fit
  | defended => rw [q] at fit; exact SlotState.standsIn_of_defends fit
  | _ => rw [q] at hc; cases hc

theorem Blank.hostLaw {s t : State} (h : Blank s t) (group : isGroup s.settings.station = false) : HostLaw t := by
  refine ⟨fun n => ?_, fun n a hc => ?_, fun n m a hc => ?_, ?_, fun n hm => ?_⟩
  · rw [h.slot]
    exact ⟨by simp, by simp⟩
  · rw [h.slot] at hc; cases hc
  · rw [h.slot] at hc; cases hc
  · rcases h.settings with q | q <;> rw [q]
    · exact group
    · decide
  · rw [h.slot] at hm; cases hm

theorem Act.hostLaw {s t : State} (records : RecordsLaw s) (states : StatesLaw s) (h : HostLaw s) (a : Act s t) : HostLaw t := by
  have release := hostLaw_keptByRelease
  have same : ∀ {n : Fin 16} {f : Slot → Slot} {u : State}, u.settings.station = s.settings.station → (∀ m, u.slot m = s.slot m) →
      (∀ x, (f x).client = x.client) → (∀ x, (f x).mode = x.mode) → (∀ x, (f x).state = x.state) →
      HostLaw (u.modSlot n f) := fun hs hu client mode state => by
    refine h.of_sameStates (fun m => ?_) (fun m => ?_) hs (fun m => ?_)
    all_goals
      rw [slot_modSlot, hu]
      split
    · exact client _
    · rfl
    · exact mode _
    · rfl
    · exact state _
    · rfl
  cases a with
  | moved k => exact release.moved h k
  | @slotWork n es g f w =>
    have slot : ∀ m, ((s.modBindings es g).modSlot n f).slot m = if n = m then f (s.slot m) else s.slot m :=
      fun m => slot_modSlot _ n m f
    refine h.of_same (fun m => ?_) (fun m => ?_) rfl (fun m => ?_) fun m => ?_
    · rw [slot]
      split
      · exact (w.kept _).client
      · rfl
    · rw [slot]
      split
      · exact (w.kept _).mode
      · rfl
    · rw [slot]
      split
      · next q =>
        subst q
        rcases w.state with e | e
        · rw [e]
        · simp [e.old.1, e.new.1]
      · rfl
    · rw [slot]
      split
      · next q =>
        subst q
        rcases w.state with e | e
        · rw [e]
          exact .inl
        · exact fun _ => e.leaves
      · exact .inl
  | stationSet a group unused armed fresh => exact h.setStation group unused armed fresh
  | slotOpened n client m nonzero group _ fresh away => exact h.openSlot nonzero group fresh away rfl rfl rfl
  | inserted n a e w =>
    exact h.of_sameStates (fun m => by rw [slot_insert]; split <;> rfl) (fun m => by rw [slot_insert]; split <;> rfl)
      rfl fun m => by rw [slot_insert]; split <;> rfl
  | removed e =>
    exact h.of_sameStates (fun m => by rw [slot_freeEntries]) (fun m => by rw [slot_freeEntries]) rfl
      fun m => by rw [slot_freeEntries]
  | attached n p => exact same rfl (fun _ => rfl) (fun _ => rfl) (fun _ => rfl) fun _ => rfl
  | detached n p => exact same rfl (fun _ => rfl) (fun _ => rfl) (fun _ => rfl) fun _ => rfl
  | vacated n idle => exact h.becomeVacant n
  | releaseStarted n _ own held =>
    have standsIn := states.standsIn_of_held records held
    have beyond : (s.slot n).state ≠ .vacant ∧ (s.slot n).state ≠ .staged := by
      revert standsIn
      cases (s.slot n).state <;> decide
    refine h.of_same (fun m => by rw [slot_startRelease]; split <;> rfl) (fun m => by rw [slot_startRelease]; split <;> rfl) rfl
      (fun m => ?_) fun m => ?_
    · rw [slot_startRelease]
      split
      · next q => subst q; simp [beyond.1]
      · rfl
    · rw [slot_startRelease]
      split
      · next q => subst q; exact fun _ => .inl beyond.2
      · exact .inl
  | handbacksLeft d es => exact release.handbacksLeft h d es
  | releaseAborted r => exact release.finishRelease h _ _
  | blanked k =>
    obtain ⟨-, -, -, group, -⟩ := h
    exact k.hostLaw group
  | _ => exact h

/-! ### The laws along every step -/

theorem SettingsLaw.probeCount_pos {s : State} (h : SettingsLaw s) : 1 ≤ s.settings.probeCount := by
  obtain ⟨-, range, -⟩ := h
  simp only [timingInRange, Bool.and_eq_true, decide_eq_true_eq] at range
  omega

/-- Settles O55: each act of a step keeps the law of the release in progress. -/
theorem releaseLawKept : Obligations.ReleaseLawKept :=
  fun _ _ h step => (step_acts step).keep (fun _ _ => Act.releaseLaw) h

/-- Settles O56: the acts keep the law beside the laws of the records and of the claim states, which say that a slot whose release starts
is beyond STAGED. -/
theorem hostLawKept : Obligations.HostLawKept := by
  intro s t records claims host step
  have keep := (step_acts step).keep (P := fun s => RecordsLaw s ∧ StatesLaw s ∧ HostLaw s) fun _ _ ⟨r, c, h⟩ a =>
    ⟨a.recordsLaw r, a.statesLaw r c, a.hostLaw r c h⟩
  obtain ⟨states, -⟩ := claimLaw_iff.mp claims
  obtain ⟨-, -, kept⟩ := keep ⟨records, states, host⟩
  exact kept

/-- Settles O57: each act changes slot records, settings and attention sets only as their laws allow. -/
theorem wakeAndRangeLawsKept : Obligations.WakeAndRangeLawsKept := by
  refine ⟨fun s t policy wake step => ?_, fun s t settings policy attention step => ⟨?_, ?_, ?_⟩⟩
  · exact ((step_acts step).keep (P := fun s => PolicyLaws s ∧ WakeLaws s) (fun _ _ => Act.wakeLaws) ⟨policy, wake⟩).2
  · exact (step_acts step).keep (fun _ _ => Act.settingsLaw) settings
  · exact (step_acts step).keep (fun _ _ => Act.policyLaws) policy
  · exact (step_acts step).keep (fun _ _ => Act.attentionLaw) attention

/-- Settles O58: each act keeps reference counts equal to the lists that hold a pattern. -/
theorem patternLawKept : Obligations.PatternLawKept :=
  fun _ _ h step => (step_acts step).keep (fun _ _ => Act.patternLaw) h

/-- Settles O59: each act keeps entries, lists and index ways tied to one another. -/
theorem recordsLawKept : Obligations.RecordsLawKept :=
  fun _ _ h step => (step_acts step).keep (fun _ _ => Act.recordsLaw) h

/-- Settles O60: the acts keep the claim states beside the records, and the probe counts beside the settings. -/
theorem claimLawKept : Obligations.ClaimLawKept := by
  intro s t records settings claims step
  have keep := (step_acts step).keep (P := fun s => RecordsLaw s ∧ SettingsLaw s ∧ StatesLaw s ∧ ProbesLaw s)
    fun _ _ ⟨r, g, c, p⟩ a => ⟨a.recordsLaw r, a.settingsLaw g, a.statesLaw r c, a.probesLaw c g.probeCount_pos p⟩
  obtain ⟨-, -, kept⟩ := keep ⟨records, settings, claimLaw_iff.mp claims⟩
  exact claimLaw_iff.mpr kept

/-- The state after reset is blank. -/
theorem blank_reset (s : State) : Blank s State.reset := blank_of_reset rfl rfl rfl rfl rfl rfl rfl

/-- Settles O3: what a blank state with the power-on settings fulfils. -/
theorem lawsHoldAtReset : Obligations.LawsHoldAtReset := by
  have blank := blank_reset State.reset
  have settings : SettingsLaw State.reset := settingsLaw_defaults rfl
  have queue : QueueLaw State.reset := ⟨by decide, (fun h => by cases h), fun _ => ⟨rfl, rfl⟩⟩
  have release : ReleaseLaw State.reset := (releaseLaw_idle blank.running).mpr fun n => by rw [blank.slot]; exact ⟨by simp, rfl⟩
  have probes : ProbesLaw State.reset := fun e b hb => by rw [blank.binding] at hb; cases hb
  refine ⟨⟨⟨rfl, rfl⟩, rfl⟩, queue, fun n => ?_, release, blank.hostLaw (by decide), settings, fun n => ?_, ⟨fun n => ?_, by decide⟩,
    blank.patternLaw, blank.recordsLaw, claimLaw_iff.mpr ⟨blank.statesLaw, probes⟩⟩
  all_goals
    rw [blank.slot]
    decide

end Sys2Proof.Machine

namespace Sys2Proof.Machine

/-! ## What the commands of the binding table do -/

/-! ### Settings (R170 to R172) -/

/-- In a ready part the transmitter has nothing to take (R103). -/
theorem Ready.noTake {s : State} (h : Ready s) : s.canTake = false := h.1.2

/-- A command carried out within its GO leaves the records `t`, written as an update of the state before its command area was placed. -/
theorem go_success {i : Instr} {body : State → Reply} {s t : State} {data : List Byte} (h : Ready s)
    (hb : body (s.placeCommand i) = .done data (t.placeCommand i)) (ht : t.canTake = false) :
    event (runCommand i body) s = .next (success i t data) := go_done h hb ht

theorem usesStation_iff {x : Slot} :
    x.usesStation = true ↔ x.mode = some .own ∧ (x.state.standsIn = true ∨ x.state = .releasing) := by
  simp [Slot.usesStation, Slot.isOwn]

/-- Settles O15: each check of the body reads one of the three conditions on the slots. -/
theorem setStationOutcome : Obligations.SetStationOutcome := by
  intro a s ready i used armed taken
  have uses : s.anySlot Slot.usesStation = true ↔ used := by simp only [anySlot_eq_true, usesStation_iff, used]
  have waits : s.anySlot (fun x => x.isOwn && x.state == .armed) = true ↔ armed := by simp [anySlot_eq_true, Slot.isOwn, armed]
  have known : s.anySlot (fun x => x.client == some a) = true ↔ taken := by simp [anySlot_eq_true, taken]
  refine ⟨fun hg => go_refused ready (if_pos hg), fun hg hw => go_refused ready ?_, fun hg hu ha hk => go_refused ready ?_,
    fun hg hu hw hk => go_success ready ?_ ready.noTake⟩
  · have group : ¬ isGroup a = true := by simp [hg]
    by_cases hu : used
    · exact (if_neg group).trans (if_pos (uses.mpr hu))
    · obtain ⟨h0, hw⟩ := hw.resolve_left hu
      exact (if_neg group).trans <| (if_neg fun h => hu (uses.mp h)).trans (if_pos ⟨h0, waits.mpr hw⟩)
  · exact (if_neg (by simp [hg])).trans <| (if_neg fun h => hu (uses.mp h)).trans <| (if_neg fun h => ha h.1).trans
      (if_pos ⟨ha, known.mpr hk⟩)
  · exact (if_neg (by simp [hg])).trans <| (if_neg fun h => hu (uses.mp h)).trans <|
      (if_neg fun h => hw ⟨h.1, waits.mp h.2⟩).trans (if_neg fun h => hk ⟨h.1, known.mp h.2⟩)

/-- The records with the three timings replaced and the probes sent trimmed (R172). -/
def State.retime (s : State) (count interval window : Nat) : State :=
  { s with
    settings := { s.settings with probeCount := count, probeInterval := interval, defenceWindow := window }
    entries := tabulate 96 fun e => (s.entry e).modBinding (Binding.trimProbes count) }

theorem timingInRange_iff {count interval window : Nat} : timingInRange count interval window = true ↔
    1 ≤ count ∧ count ≤ 7 ∧ interval % 10 = 0 ∧ 100 ≤ interval ∧ interval ≤ 2550 ∧ 1 ≤ window ∧ window ≤ 60 := by
  simp only [timingInRange, Bool.and_eq_true, decide_eq_true_eq, and_assoc]

theorem trimProbes_eq (count : Nat) : Binding.trimProbes count =
    fun b => { b with probesSent := if count < b.probesSent then count else b.probesSent } := by
  funext b
  rw [Binding.trimProbes]
  congr 1
  split <;> omega

/-- Settles O16: SET_SEGMENT and SET_TIMING. -/
theorem segmentAndTimingOutcome : Obligations.SegmentAndTimingOutcome := by
  constructor
  · intro tag s ready i still
    have moving : s.anySlot (fun x => !(x.state == .vacant || x.state == .staged)) = true ↔ ¬ still := by
      simp [anySlot_eq_true, still]
    refine ⟨fun hr => go_refused ready (if_pos hr), fun hr hm => go_refused ready ?_, fun hr hs => go_success ready ?_ ready.noTake⟩
    · exact (if_neg (Nat.not_le.mpr hr)).trans (if_pos (moving.mpr hm))
    · exact (if_neg (Nat.not_le.mpr hr)).trans (if_neg fun h => moving.mp h hs)
  · intro count interval window s ready i good probing
    have range : timingInRange count.toNat interval.toNat window.toNat = true ↔ good := timingInRange_iff
    have busy : s.anySlot (fun x => x.state == .probing) = true ↔ probing := by simp [anySlot_eq_true, probing]
    refine ⟨fun hr => go_refused ready ?_, fun hr hp => go_refused ready ?_, fun hr hp => ?_⟩
    · exact if_pos (eq_false_of_ne_true fun h => hr (range.mp h))
    · exact (if_neg (by simp [range.mpr hr])).trans (if_pos (busy.mpr hp))
    · refine ⟨success i (s.retime count.toNat interval.toNat window.toNat) [], go_success ready ?_ ready.noTake, rfl, rfl, fun e => ?_⟩
      · exact (if_neg (by simp [range.mpr hr])).trans (if_neg fun h => hp (busy.mp h))
      rw [← trimProbes_eq]
      exact getElem_tabulate 96 _ e.val e.isLt

/-! ### Slots (R176, R177) -/

theorem slotArg_of_lt {b : Byte} {n : Fin 16} (h : n.val = b.toNat) : slotArg b = some n := slotArg_eq_some.mpr h

theorem slotArg_eq_none {b : Byte} : slotArg b = none ↔ 16 ≤ b.toNat := by
  unfold slotArg
  split
  · next h => simp [Nat.not_le.mpr h]
  · next h => simp [Nat.le_of_not_lt h]

theorem modeArg_eq {b : Byte} (h : b = 0x01#8 ∨ b = 0x02#8) : modeArg b = some (if b = 0x01#8 then .own else .mirrored) := by
  rcases h with rfl | rfl <;> rfl

theorem modeArg_eq_none {b : Byte} (h : ¬ (b = 0x01#8 ∨ b = 0x02#8)) : modeArg b = none := by
  push Not at h
  simp [modeArg, h]

/-- The body of OPEN_SLOT on a slot number and a mode that are in range (R176). -/
theorem openSlotBody_eq {slot mode : Byte} {n : Fin 16} {m : AnswerMode} (client : LinkAddr) (u : State) (hn : slotArg slot = some n)
    (hm : modeArg mode = some m) : openSlotBody slot client mode u =
      if client = 0 ∨ isGroup client then .refuse .badParameter
      else if (u.slot n).state ≠ .vacant then .refuse .wrongState
      else if u.anySlot (fun x => x.client == some client)
          ∨ (u.settings.station ≠ 0 ∧ client = u.settings.station) then .refuse .duplicateHost
      else if m = .own ∧ u.settings.station = 0 then .refuse .noStation
      else .done [] (u.modSlot n fun x =>
        { x with
          state := .staged, client := some client, mode := some m
          loss := .notify, autoRearm := false, pulseWidth := Config.vacantPulseWidth
          wakeTimeout := Config.vacantWakeTimeout, wakeRetries := Config.vacantWakeRetries, counters := {} }) := by
  rw [openSlotBody, hn, hm]

theorem openSlotBody_refuses {slot mode : Byte} (client : LinkAddr) (u : State) (h : slotArg slot = none ∨ modeArg mode = none) :
    openSlotBody slot client mode u = .refuse .badParameter := by
  rw [openSlotBody]
  cases hn : slotArg slot with
  | none => rfl
  | some n => rw [h.resolve_left (by simp [hn])]

/-- Settles O19: the arguments are in range, or the body refuses them; then the checks in their order. -/
theorem openSlotOutcome : Obligations.OpenSlotOutcome := by
  intro slot client mode s ready i good known
  have dup : (s.anySlot (fun x => x.client == some client) = true
      ∨ (s.settings.station ≠ 0 ∧ client = s.settings.station)) ↔ known := by
    simp [anySlot_eq_true, known]
  refine ⟨fun hg => go_refused ready ?_, fun n hn hg => ?_⟩
  · by_cases hn : slotArg slot = none
    · exact openSlotBody_refuses client _ (.inl hn)
    by_cases hm : modeArg mode = none
    · exact openSlotBody_refuses client _ (.inr hm)
    obtain ⟨n, hn⟩ := Option.ne_none_iff_exists'.mp hn
    obtain ⟨m, hm⟩ := Option.ne_none_iff_exists'.mp hm
    refine (openSlotBody_eq client _ hn hm).trans (if_pos ?_)
    by_contra hc
    push Not at hc
    obtain ⟨nonzero, group⟩ := hc
    refine hg ⟨?_, ?_, nonzero, eq_false_of_ne_true group⟩
    · have := slotArg_eq_some.mp hn
      omega
    · by_contra hb
      rw [modeArg_eq_none hb] at hm
      cases hm
  · obtain ⟨-, hmode, nonzero, group⟩ := hg
    have body := openSlotBody_eq client (s.placeCommand i) (slotArg_of_lt hn) (modeArg_eq hmode)
    have usable : ¬ (client = 0 ∨ isGroup client = true) := not_or.mpr ⟨nonzero, by simp [group]⟩
    have own : (if mode = 0x01#8 then AnswerMode.own else .mirrored) = .own ↔ mode = 0x01#8 := by split <;> simp_all
    refine ⟨fun hv => go_refused ready ?_, fun hv hk => go_refused ready ?_, fun hv hk hm h0 => go_refused ready ?_,
      fun hv hk hm => ?_⟩
    · exact body.trans <| (if_neg usable).trans (if_pos hv)
    · exact body.trans <| (if_neg usable).trans <| (if_neg (not_not.mpr hv)).trans (if_pos (dup.mpr hk))
    · exact body.trans <| (if_neg usable).trans <| (if_neg (not_not.mpr hv)).trans <| (if_neg fun h => hk (dup.mp h)).trans
        (if_pos ⟨own.mpr hm, h0⟩)
    · refine go_success ready (body.trans ?_) ready.noTake
      exact (if_neg usable).trans <| (if_neg (not_not.mpr hv)).trans <| (if_neg fun h => hk (dup.mp h)).trans
        (if_neg fun h => hm ⟨own.mp h.1, h.2⟩)

theorem lossArg_eq {b : Byte} (h : b = 0x01#8 ∨ b = 0x02#8) : lossArg b = some (if b = 0x01#8 then .notify else .wake) := by
  rcases h with rfl | rfl <;> rfl

theorem lossArg_eq_none {b : Byte} (h : ¬ (b = 0x01#8 ∨ b = 0x02#8)) : lossArg b = none := by
  push Not at h
  simp [lossArg, h]

theorem flagArg_eq {b : Byte} (h : b = 0x00#8 ∨ b = 0x01#8) : flagArg b = some (decide (b = 0x01#8)) := by
  rcases h with rfl | rfl <;> rfl

theorem flagArg_eq_none {b : Byte} (h : ¬ (b = 0x00#8 ∨ b = 0x01#8)) : flagArg b = none := by
  push Not at h
  simp [flagArg, h]

theorem policyInRange_iff {pulse timeout retries : Nat} : policyInRange pulse timeout retries = true ↔
    1 ≤ pulse ∧ timeout % 100 = 0 ∧ 100 ≤ timeout ∧ timeout ≤ 25500 ∧ pulse < timeout ∧ retries ≤ 7 := by
  simp only [policyInRange, Bool.and_eq_true, decide_eq_true_eq, and_assoc]

/-- The body of SET_SLOT_POLICY on a slot number, a loss policy and a flag that are in range (R177). -/
theorem setSlotPolicyBody_eq {slot loss rearm : Byte} {n : Fin 16} {l : LossPolicy} {a : Bool} (pulse : Byte) (timeout : BitVec 16)
    (retries : Byte) (u : State) (hn : slotArg slot = some n) (hl : lossArg loss = some l) (ha : flagArg rearm = some a) :
    setSlotPolicyBody slot loss rearm pulse timeout retries u =
      if policyInRange pulse.toNat timeout.toNat retries.toNat = false then .refuse .badParameter
      else if (u.slot n).state ≠ .staged then .refuse .wrongState
      else .done [] (u.modSlot n fun x =>
        { x with
          loss := l, autoRearm := a, pulseWidth := pulse.toNat, wakeTimeout := timeout.toNat
          wakeRetries := retries.toNat }) := by
  rw [setSlotPolicyBody, hn, hl, ha]

theorem setSlotPolicyBody_refuses {slot loss rearm : Byte} (pulse : Byte) (timeout : BitVec 16) (retries : Byte) (u : State)
    (h : slotArg slot = none ∨ lossArg loss = none ∨ flagArg rearm = none) :
    setSlotPolicyBody slot loss rearm pulse timeout retries u = .refuse .badParameter := by
  rw [setSlotPolicyBody]
  cases hn : slotArg slot with
  | none => rfl
  | some n =>
    cases hl : lossArg loss with
    | none => rfl
    | some l => rw [(h.resolve_left (by simp [hn])).resolve_left (by simp [hl])]

/-- Settles O20: the arguments and the policy are in range, or the body refuses them; then the slot state. -/
theorem setSlotPolicyOutcome : Obligations.SetSlotPolicyOutcome := by
  intro slot loss rearm pulse timeout retries s ready i good
  have positive : pulse ≠ 0 ↔ 1 ≤ pulse.toNat := by
    rw [Nat.one_le_iff_ne_zero, ne_eq, ne_eq, ← BitVec.toNat_inj]
    rfl
  refine ⟨fun hg => go_refused ready ?_, fun n hn hg => ?_⟩
  · by_cases hn : slotArg slot = none
    · exact setSlotPolicyBody_refuses pulse timeout retries _ (.inl hn)
    by_cases hl : lossArg loss = none
    · exact setSlotPolicyBody_refuses pulse timeout retries _ (.inr (.inl hl))
    by_cases ha : flagArg rearm = none
    · exact setSlotPolicyBody_refuses pulse timeout retries _ (.inr (.inr ha))
    obtain ⟨n, hn⟩ := Option.ne_none_iff_exists'.mp hn
    obtain ⟨l, hl'⟩ := Option.ne_none_iff_exists'.mp hl
    obtain ⟨a, ha'⟩ := Option.ne_none_iff_exists'.mp ha
    refine (setSlotPolicyBody_eq pulse timeout retries _ hn hl' ha').trans (if_pos (eq_false_of_ne_true fun hr => hg ?_))
    obtain ⟨h1, h2, h3, h4, h5, h6⟩ := policyInRange_iff.mp hr
    refine ⟨?_, not_not.mp fun h => hl (lossArg_eq_none h), not_not.mp fun h => ha (flagArg_eq_none h), positive.mpr h1,
      h2, h3, h4, h5, h6⟩
    have := slotArg_eq_some.mp hn
    omega
  · obtain ⟨-, hl, ha, hp, h2, h3, h4, h5, h6⟩ := hg
    have body := setSlotPolicyBody_eq pulse timeout retries (s.placeCommand i) (slotArg_of_lt hn) (lossArg_eq hl) (flagArg_eq ha)
    have range : ¬ policyInRange pulse.toNat timeout.toNat retries.toNat = false := by
      rw [policyInRange_iff.mpr ⟨positive.mp hp, h2, h3, h4, h5, h6⟩]
      simp
    refine ⟨fun hs => go_refused ready ?_, fun hs => go_success ready ?_ ready.noTake⟩
    · exact body.trans <| (if_neg range).trans (if_pos hs)
    · exact body.trans <| (if_neg range).trans (if_neg (not_not.mpr hs))

end Sys2Proof.Machine

namespace Sys2Proof.Machine

/-! ### The bucket of a key (R18) -/

theorem byte_of_number (w k : Nat) (a : BitVec w) : BitVec.ofNat 8 (a.toNat / 256 ^ k) = a.extractLsb' (8 * k) 8 := by
  refine BitVec.eq_of_toNat_eq ?_
  rw [BitVec.toNat_ofNat, BitVec.extractLsb'_toNat, Nat.shiftRight_eq_div_pow, Nat.pow_mul]

/-- The bytes of a number are its bytes from the least significant on, in reverse. -/
theorem toBytesBE_eq_reverse (n x : Nat) : toBytesBE n x = ((List.range n).map fun k => BitVec.ofNat 8 (x / 256 ^ k)).reverse := by
  induction n with
  | zero => rfl
  | succ n ih => rw [toBytesBE, ih, List.range_succ, List.map_append, List.reverse_append]; rfl

/-- The exclusive-or does not depend on the order of the bytes. -/
theorem xorBytes_reverse (l : List Byte) : xorBytes l.reverse = xorBytes l := by
  have comm : RightCommutative (fun x y : Byte => x ^^^ y) :=
    ⟨fun x y z => by rw [BitVec.xor_assoc, BitVec.xor_comm y, ← BitVec.xor_assoc]⟩
  exact (List.reverse_perm l).foldl_eq 0#8

/-- The exclusive-or of the bytes of a number of `n` bytes (R18). -/
theorem xorBytes_toBytesBE (w n : Nat) (a : BitVec w) :
    xorBytes (toBytesBE n a.toNat) = (List.range n).foldl (fun x k => x ^^^ a.extractLsb' (8 * k) 8) 0#8 := by
  rw [toBytesBE_eq_reverse, xorBytes_reverse, xorBytes, List.foldl_map]
  simp only [byte_of_number]

theorem xorBytes_v4 (a : BitVec 32) :
    xorBytes (Addr.v4 a).bytes = a.extractLsb' 24 8 ^^^ a.extractLsb' 16 8 ^^^ a.extractLsb' 8 8 ^^^ a.extractLsb' 0 8 := by
  have h : xorBytes (Addr.v4 a).bytes = 0#8 ^^^ a.extractLsb' 0 8 ^^^ a.extractLsb' 8 8 ^^^ a.extractLsb' 16 8 ^^^ a.extractLsb' 24 8 :=
    xorBytes_toBytesBE 32 4 a
  rw [h, BitVec.zero_xor]
  ac_rfl

/-- Bit 5 of the exclusive-or moves the bucket by 32. -/
theorem mod_xor_32 : ∀ x : Byte, (x.toNat % 64 + 32) % 64 = (x ^^^ 0x20#8).toNat % 64 := by decide

/-- Settles O51: the bytes of an address are those of its number, and exclusive-or does not depend on their order. -/
theorem bucketOfKey : Obligations.BucketOfKey := by
  have v4 : ∀ a : BitVec 32, (bucketOf (.v4 a)).val =
      (a.extractLsb' 24 8 ^^^ a.extractLsb' 16 8 ^^^ a.extractLsb' 8 8 ^^^ a.extractLsb' 0 8).toNat % 64 := fun a => by
    rw [← xorBytes_v4]
    rfl
  have v6 : ∀ a : BitVec 128, (bucketOf (.v6 a)).val =
      (((List.range 16).foldl (fun x k => x ^^^ a.extractLsb' (8 * k) 8) 0#8) ^^^ 0x20#8).toNat % 64 := fun a => by
    rw [← xorBytes_toBytesBE 128 16 a]
    rfl
  refine ⟨v4, v6, fun a c same => ?_⟩
  rw [v4, v6, same]
  exact mod_xor_32 _

/-! ### Address arguments (R11, R169, R178) -/

theorem addrArg_v4 (address : BitVec 128) : addrArg 0x01#8 address =
    if (Addr.v4 (address.extractLsb' 96 32)).usable then some (.v4 (address.extractLsb' 96 32)) else none := by
  simp [addrArg, familyArg, Option.filter]

theorem addrArg_v6 (address : BitVec 128) : addrArg 0x02#8 address =
    if (Addr.v6 address).usable then some (.v6 address) else none := by
  simp [addrArg, familyArg, Option.filter]

/-- The first byte of a V4 address argument says whether the address is a multicast address (R11). -/
theorem v4_multicast_iff (address : BitVec 128) : (address.extractLsb' 96 32).toNat / 2 ^ 28 = 0xE ↔
    0xE0 ≤ (address.extractLsb' 120 8).toNat ∧ (address.extractLsb' 120 8).toNat ≤ 0xEF := by
  simp only [BitVec.extractLsb'_toNat, Nat.shiftRight_eq_div_pow]
  omega

theorem v6_multicast_iff (address : BitVec 128) : address.toNat / 2 ^ 120 = 0xFF ↔ address.extractLsb' 120 8 = 0xFF#8 := by
  rw [← BitVec.toNat_inj, BitVec.extractLsb'_toNat, Nat.shiftRight_eq_div_pow]
  have := address.isLt
  simp only [BitVec.toNat_ofNat]
  omega

theorem v4_unusable_iff (address : BitVec 128) : (Addr.v4 (address.extractLsb' 96 32)).usable = false ↔
    address.extractLsb' 96 32 = 0 ∨ address.extractLsb' 96 32 = 0xFFFFFFFF#32
      ∨ (0xE0 ≤ (address.extractLsb' 120 8).toNat ∧ (address.extractLsb' 120 8).toNat ≤ 0xEF) := by
  rw [← v4_multicast_iff]
  simp only [Addr.usable, Bool.and_eq_false_iff, bne_eq_false_iff_eq, or_assoc]

theorem v6_unusable_iff (address : BitVec 128) : (Addr.v6 address).usable = false ↔
    address = 0 ∨ address.extractLsb' 120 8 = 0xFF#8 := by
  rw [← v6_multicast_iff]
  simp only [Addr.usable, Bool.and_eq_false_iff, bne_eq_false_iff_eq]

/-- A refused address argument gives no key (R11, R169). -/
theorem addrArg_refused {family : Byte} {address : BitVec 128} (h : addressRefused family address) : addrArg family address = none := by
  rcases h with ⟨h1, h2⟩ | ⟨rfl, h⟩ | ⟨rfl, h⟩
  · simp [addrArg, familyArg, h1, h2]
  · rw [addrArg_v4, (v4_unusable_iff address).mpr h]
    rfl
  · rw [addrArg_v6, (v6_unusable_iff address).mpr h]
    rfl

/-- Every other address argument gives its key (R11, R178). -/
theorem addrArg_given {family : Byte} {address : BitVec 128} (h : ¬ addressRefused family address) :
    addrArg family address = some (addressGiven family address) := by
  simp only [addressRefused, not_or, not_and] at h
  obtain ⟨h0, h1, h2⟩ := h
  by_cases hf : family = 0x01#8
  · subst hf
    have usable : (Addr.v4 (address.extractLsb' 96 32)).usable = true :=
      eq_true_of_ne_false fun hu => by
        have := (v4_unusable_iff address).mp hu
        obtain ⟨n1, n2, n3⟩ := h1 rfl
        rcases this with q | q | ⟨q, r⟩
        · exact n1 q
        · exact n2 q
        · exact n3 q r
    rw [addrArg_v4, usable]
    rfl
  · have hf2 : family = 0x02#8 := not_not.mp (h0 hf)
    subst hf2
    have usable : (Addr.v6 address).usable = true :=
      eq_true_of_ne_false fun hu => by
        obtain ⟨n1, n2⟩ := h2 rfl
        rcases (v6_unusable_iff address).mp hu with q | q
        · exact n1 q
        · exact n2 q
    rw [addrArg_v6, usable]
    rfl

/-! ### Look-ups and free places (R15, R19, R20) -/

theorem lookup_isSome_iff {s : State} {a : Addr} : (s.lookup a).isSome = true ↔
    ∃ w e b, s.wayHolds (bucketOf a) w e ∧ s.binding e = some b ∧ b.addr = a := by
  constructor
  · intro h
    obtain ⟨e, he⟩ := Option.isSome_iff_exists.mp h
    obtain ⟨w, b, hw, hb, ha⟩ := lookup_found he
    exact ⟨w, e, b, hw, hb, ha⟩
  · rintro ⟨w, e, b, hw, hb, ha⟩
    by_contra hn
    exact lookup_none (by simpa using hn) hw hb ha

/-- In lawful records a look-up finds the one entry that holds the key (R12, R19). -/
theorem RecordsLaw.lookup_iff {s : State} (h : RecordsLaw s) {a : Addr} {e : Fin 96} :
    s.lookup a = some e ↔ ∃ b, s.binding e = some b ∧ b.addr = a := by
  constructor
  · intro he
    obtain ⟨-, b, -, hb, ha⟩ := lookup_found he
    exact ⟨b, hb, ha⟩
  · rintro ⟨b, hb, ha⟩
    cases hl : s.lookup a with
    | none => exact absurd ha (h.key_of_lookup_none hl hb)
    | some f =>
      obtain ⟨-, c, -, hc, hk⟩ := lookup_found hl
      obtain ⟨-, -, -, -, -, apart, -⟩ := h
      rw [apart f e c b hc hb (hk.trans ha.symm)]

/-- The first number that fulfils a property. -/
theorem find?_finRange {n : Nat} {p : Fin n → Bool} {i : Fin n} (hp : p i = true) (first : ∀ j, j < i → p j = false) :
    (List.finRange n).find? p = some i := by
  refine List.find?_eq_some_iff_getElem.mpr ⟨hp, i, by simp, by simp, fun j hj => ?_⟩
  simp [first ⟨j, by omega⟩ hj]

theorem lowestFree_eq {s : State} {e : Fin 96} (free : s.binding e = none) (first : ∀ c, c < e → s.binding c ≠ none) :
    s.lowestFree = some e :=
  find?_finRange (by simp [free]) fun c hc => by simpa [Option.isSome_iff_ne_none] using first c hc

theorem lowestFree_eq_none {s : State} (h : ∀ e, s.binding e ≠ none) : s.lowestFree = none :=
  List.find?_eq_none.mpr fun e _ => by simpa using h e

theorem lowestWay_eq {s : State} {k : Fin 64} {w : Fin 4} (empty : (s.bucket k)[w] = none)
    (first : ∀ v : Fin 4, v < w → (s.bucket k)[v] ≠ none) : s.lowestWay k = some w :=
  find?_finRange (beq_iff_eq.mpr empty) fun v hv => beq_false_of_ne (first v hv)

theorem lowestWay_eq_none {s : State} {k : Fin 64} (h : ∀ w : Fin 4, (s.bucket k)[w] ≠ none) : s.lowestWay k = none :=
  List.find?_eq_none.mpr fun w _ => by simpa using h w

/-! ### ADD_ADDRESS and REMOVE_ADDRESS (R178, R179) -/

theorem addAddressBody_refuses {slot family : Byte} {address : BitVec 128} (u : State)
    (h : slotArg slot = none ∨ addrArg family address = none) : addAddressBody slot family address u = .refuse .badParameter := by
  rw [addAddressBody]
  cases hn : slotArg slot with
  | none => rfl
  | some n => rw [h.resolve_left (by simp [hn])]

theorem addAddressBody_eq {slot family : Byte} {address : BitVec 128} {n : Fin 16} {a : Addr} (u : State) (hn : slotArg slot = some n)
    (ha : addrArg family address = some a) : addAddressBody slot family address u =
      if (u.slot n).state ≠ .staged then .refuse .wrongState
      else if Config.addressListLimit ≤ (u.slot n).addresses.length then .refuse .slotFull
      else u.insertion n a := by
  rw [addAddressBody, hn, ha]

/-- The checks of an insertion for the lowest FREE entry (R20). -/
theorem insertion_eq (u : State) (n : Fin 16) (a : Addr) {e : Fin 96} (he : u.lowestFree = some e) : u.insertion n a =
    if (u.lookup a).isSome then .refuse .duplicateAddress
    else match u.lowestWay (bucketOf a) with
      | none => .refuse .bucketFull
      | some w => .done [countByte e.val, (u.entry e).gen] (u.insert n a e w) := by
  rw [State.insertion, he] <;> rfl

/-- Settles O21: the checks in their order, then the lowest FREE entry and the lowest empty way, which the insertion fills. -/
theorem addAddressOutcome : Obligations.AddAddressOutcome := by
  intro slot family address s ready i
  refine ⟨fun h => go_refused ready (addAddressBody_refuses _ (h.imp slotArg_eq_none.mpr addrArg_refused)), fun n hn ha => ?_⟩
  intro a room held
  have body := addAddressBody_eq (s.placeCommand i) (slotArg_of_lt hn) (addrArg_given ha)
  refine ⟨fun hs => go_refused ready (body.trans (if_pos hs)),
    fun hs hl => go_refused ready (body.trans <| (if_neg (not_not.mpr hs)).trans (if_pos hl)), fun hr full => ?_,
    fun e hr free first => ?_⟩
  all_goals
    have inserts : addAddressBody slot family address (s.placeCommand i) = (s.placeCommand i).insertion n a :=
      body.trans <| (if_neg (not_not.mpr hr.1)).trans (if_neg (Nat.not_le.mpr hr.2))
  · refine go_refused ready (inserts.trans ?_)
    rw [State.insertion, lowestFree_eq_none (s := s.placeCommand i) full]
  have lowest := inserts.trans (insertion_eq _ n a (lowestFree_eq (s := s.placeCommand i) free first))
  refine ⟨fun hk => go_refused ready (lowest.trans (if_pos (lookup_isSome_iff.mpr hk))), fun hk full => ?_,
    fun w hk empty lower => ?_⟩
  · refine go_refused ready (lowest.trans <| (if_neg fun h => hk (lookup_isSome_iff.mp h)).trans ?_)
    rw [lowestWay_eq_none (s := s.placeCommand i) full]
  · refine ⟨success i (s.insert n a e w) [countByte e.val, (s.entry e).gen], go_success ready ?_ ready.noTake, rfl, fun m => ?_,
      fun c => ?_, fun k v => ?_⟩
    · refine lowest.trans <| (if_neg fun h => hk (lookup_isSome_iff.mp h)).trans ?_
      rw [lowestWay_eq (s := s.placeCommand i) empty lower]
      rfl
    · refine (slot_insert s n m a e w).trans ?_
      by_cases q : m = n
      · rw [if_pos q.symm, if_pos q, q]
      · rw [if_neg (Ne.symm q), if_neg q]
    · refine (entry_insert s n a e c w).trans ?_
      by_cases q : c = e
      · rw [if_pos q.symm, if_pos q, q]
      · rw [if_neg (Ne.symm q), if_neg q]
    · refine (way_insert s n a e w v k).trans ?_
      simp only [eq_comm]

theorem entryArg_eq_some {b : Byte} {e : Fin 96} : entryArg b = some e ↔ e.val = b.toNat := by
  unfold entryArg
  split
  · simp [Fin.ext_iff, eq_comm]
  · have := e.isLt
    simp only [reduceCtorEq, false_iff]
    omega

theorem entryArg_eq_none {b : Byte} (h : 96 ≤ b.toNat) : entryArg b = none := by
  rw [entryArg, dif_neg (Nat.not_lt.mpr h)]

theorem removeAddressBody_free {entry : Byte} {e : Fin 96} {u : State} (he : entryArg entry = some e) (hb : u.binding e = none) :
    removeAddressBody entry u = .refuse .notFound := by
  rw [removeAddressBody, he]
  simp only [hb]

theorem removeAddressBody_bound {entry : Byte} {e : Fin 96} {b : Binding} {u : State} (he : entryArg entry = some e)
    (hb : u.binding e = some b) : removeAddressBody entry u =
      if (u.slot b.owner).state ≠ .staged then .refuse .wrongState
      else .done [countByte e.val, ((u.freeEntries [e]).entry e).gen] (u.freeEntries [e]) := by
  rw [removeAddressBody, he]
  simp only [hb]

theorem entry_freed {s : State} {e : Fin 96} {b : Binding} (hb : s.binding e = some b) :
    (s.freeEntries [e]).entry e = { gen := (s.entry e).gen + 1, binding := none } := by
  rw [entry_freeEntries, if_pos (List.mem_singleton_self e), Entry.free, if_pos (by rw [← State.binding_eq, hb]; rfl)]

/-- In lawful records an entry is taken out of its owner's list and of no other (R5, R16). -/
theorem RecordsLaw.slot_freed {s : State} (h : RecordsLaw s) {e : Fin 96} {b : Binding} (hb : s.binding e = some b) (m : Fin 16) :
    (s.freeEntries [e]).slot m = if m = b.owner then
      { s.slot m with addresses := (s.slot m).addresses.filter fun c => c != e } else s.slot m := by
  have filter : (s.slot m).addresses.filter (fun c => !decide (c ∈ [e])) = (s.slot m).addresses.filter fun c => c != e :=
    List.filter_congr fun c _ => by rw [Bool.eq_iff_iff]; simp
  rw [slot_freeEntries, filter]
  split
  · rfl
  · next hm =>
    have list : (s.slot m).addresses.filter (fun c => c != e) = (s.slot m).addresses := by
      refine List.filter_eq_self.mpr fun c hc => bne_iff_ne.mpr ?_
      rintro rfl
      obtain ⟨d, hd, ho⟩ := h.allocated hc
      cases hb.symm.trans hd
      exact hm ho.symm
    rw [list]

/-- Settles O22: in lawful records the freed entry stands in its owner's list alone. -/
theorem removeAddressOutcome : Obligations.RemoveAddressOutcome := by
  intro entry s ready records i
  refine ⟨fun h => go_refused ready ?_, fun e he => ?_⟩
  · rw [removeAddressBody, entryArg_eq_none h]
  have arg := entryArg_eq_some.mpr he
  refine ⟨fun hb => go_refused ready (removeAddressBody_free arg hb), fun b hb => ?_⟩
  have body := removeAddressBody_bound (u := s.placeCommand i) arg hb
  refine ⟨fun hs => go_refused ready (body.trans (if_pos hs)), fun hs => ?_⟩
  have gen : ((s.freeEntries [e]).entry e).gen = (s.entry e).gen + 1 := by rw [entry_freed hb]
  refine ⟨success i (s.freeEntries [e]) [countByte e.val, ((s.freeEntries [e]).entry e).gen],
    go_success ready (body.trans (if_neg (not_not.mpr hs))) ready.noTake, ?_, records.slot_freed hb, fun c => ?_, fun k w c => ?_⟩
  · rw [gen]
    rfl
  · show (s.freeEntries [e]).entry c = _
    by_cases q : c = e
    · rw [if_pos q, q, entry_freed hb]
    · rw [if_neg q, entry_freeEntries, if_neg (by simpa using q)]
  · show (s.freeEntries [e]).wayHolds k w c ↔ _
    rw [State.wayHolds, way_freeEntries, emptyWay_eq_some, List.mem_singleton]

end Sys2Proof.Machine

namespace Sys2Proof.Machine

/-! ### Reads (R174, R188 to R190, R194) -/

theorem flagArg_other {c : Byte} (h0 : c ≠ 0x00#8) (h1 : c ≠ 0x01#8) : flagArg c = none := by
  simp [flagArg, h0, h1]

theorem readSlotBody_refuses {slot clear : Byte} (u : State) (h : slotArg slot = none ∨ flagArg clear = none) :
    readSlotBody slot clear u = .refuse .badParameter := by
  rw [readSlotBody]
  cases hn : slotArg slot with
  | none => rfl
  | some n => rw [h.resolve_left (by simp [hn])]

theorem readSlotBody_eq {slot clear : Byte} {n : Fin 16} {c : Bool} (u : State) (hn : slotArg slot = some n)
    (hc : flagArg clear = some c) : readSlotBody slot clear u = .done (slotData u.now (u.line n).taken (u.slot n))
      (if c then u.modSlot n fun x => { x with counters := {} } else u) := by
  rw [readSlotBody, hn, hc]

theorem patternArg_eq_some {b : Byte} {p : Fin 32} (h : p.val = b.toNat) : patternArg b = some p := by
  rw [patternArg, dif_pos (h ▸ p.isLt)]
  exact congrArg some (Fin.ext h.symm)

theorem patternArg_eq_none {b : Byte} (h : 32 ≤ b.toNat) : patternArg b = none := by
  rw [patternArg, dif_neg (Nat.not_lt.mpr h)]

theorem lookupBody_unknown {family : Byte} {address : BitVec 128} {a : Addr} {u : State} (ha : addrArg family address = some a)
    (h : u.lookup a = none) : lookupBody family address u = .refuse .notFound := by
  rw [lookupBody, ha]
  simp only [h]

theorem lookupBody_found {family : Byte} {address : BitVec 128} {a : Addr} {u : State} {e : Fin 96} {b : Binding}
    (ha : addrArg family address = some a) (h : u.lookup a = some e) (hb : u.binding e = some b) :
    lookupBody family address u = .done [countByte e.val, countByte b.owner.val, b.claim.code] u := by
  rw [lookupBody, ha]
  simp only [h, hb]

/-- Settles O28: each body answers the records it was given; the look-up rests on the law of the records. -/
theorem readsChangeNothing : Obligations.ReadsChangeNothing := by
  intro s ready
  refine ⟨fun c h0 h1 => ⟨go_refused ready ?_, fun n => go_refused ready (readSlotBody_refuses _ (.inr (flagArg_other h0 h1)))⟩,
    go_success ready rfl ready.noTake, go_success ready rfl ready.noTake,
    fun b c hb => go_refused ready (readSlotBody_refuses _ (.inl (slotArg_eq_none.mpr hb))), fun b n hn => ⟨?_, ?_⟩,
    fun b hb => go_refused ready ?_, fun b e he => go_success ready ?_ ready.noTake, fun b hb => go_refused ready ?_,
    fun b p hp => go_success ready ?_ ready.noTake, fun f x hx => go_refused ready ?_, fun records a e => records.lookup_iff,
    fun f x hx => ⟨fun hl => go_refused ready (lookupBody_unknown (addrArg_given hx) hl), fun e b he hb => ?_⟩⟩
  · rw [readDeviceBody, flagArg_other h0 h1]
  · exact go_success ready (readSlotBody_eq (c := false) _ (slotArg_of_lt hn) rfl) ready.noTake
  · exact go_success ready (readSlotBody_eq (c := true) _ (slotArg_of_lt hn) rfl) ready.noTake
  · rw [readEntryBody, entryArg_eq_none hb]
  · rw [readEntryBody, entryArg_eq_some.mpr he]
    rfl
  · rw [readPatternBody, patternArg_eq_none hb]
  · rw [readPatternBody, patternArg_eq_some hp]
    rfl
  · rw [lookupBody, addrArg_refused hx]
  · exact go_success ready (lookupBody_found (addrArg_given hx) he hb) ready.noTake

/-! ### Power-on (R2, R24, R25, R29, R113, R158) -/

/-- With every mask flag disabled and the mailbox IDLE, ATTN_N is deasserted (R146). -/
theorem attnAsserted_unmasked {s : State} (settings : s.settings = {}) (idle : s.mailbox.state = .idle) : attnAsserted s = false := by
  simp [attnAsserted, State.enabledPending, State.isComplete, settings, idle]

/-- Settles O4: the state after power-on is blank, with the input lines sampled. -/
theorem powerOnSamplesInputs : Obligations.PowerOnSamplesInputs := by
  intro awake link csLow s
  have blank : Blank s { powerOnState awake link csLow with pending := s.pending } := blank_of_reset rfl rfl rfl rfl rfl rfl rfl
  refine ⟨_, rfl, fun n => getElem_tabulate 16 _ n.val n.isLt, rfl, rfl, blank.slot, fun e => ?_, blank.way, blank.pattern, rfl, rfl, rfl,
    rfl, rfl, rfl, rfl, fun k => ?_, fun k => ?_, rfl, rfl, rfl, attnAsserted_unmasked rfl rfl⟩
  · simp [State.entry, powerOnState, State.reset]
  · simp [powerOnState, State.reset]
  · simp [powerOnState, State.reset]

end Sys2Proof.Machine

namespace Sys2Proof.Machine

/-! ## What the slot controller's events do -/

/-! ### The end of an event (R103) -/

/-- The same offer, whatever the records hold that an offer does not read. -/
theorem offerDuty_update (s : State) (a : Vector Slot 16) (m : Mailbox) (e : Fin 96) :
    State.offerDuty { s with slots := a, mailbox := m } e = { s.offerDuty e with slots := a, mailbox := m } := by
  unfold State.offerDuty
  change (match s.duty e with | none => _ | some d => _) = _
  cases s.duty e with
  | none => rfl
  | some d =>
    dsimp only
    split <;> rfl

/-- An offer waits, or takes one duty from those that wait (R100). -/
theorem waiting_offerDuty {s : State} {e : Fin 96} :
    s.offerDuty e = s ∨ ((s.offerDuty e).queue.length = s.queue.length + 1 ∧ (s.offerDuty e).waiting + 1 = s.waiting) := by
  by_cases h : s.duty e = none ∨ s.link = false ∨ 16 ≤ s.queue.length
  · exact .inl (offerDuty_waits s e h)
  push Not at h
  obtain ⟨d, hd⟩ := Option.ne_none_iff_exists'.mp h.1
  have taken := offerDuty_taken s e d hd (by simpa using h.2.1) h.2.2
  refine .inr ⟨by simp [taken], ?_⟩
  have duty : ∀ c, ((s.offerDuty e).duty c).isSome = ((s.duty c).isSome && c != e) := by
    intro c
    by_cases hc : c = e
    · subst hc
      have : (s.offerDuty c).binding c = (s.binding c).map fun b => { b with duty := none } := by
        rw [taken]
        exact (binding_modBinding s c c _).trans (if_pos rfl)
      simp [State.duty, this]
    · simp [duty_congr (offerDuty_entry_other s e c hc), hc]
  have split : ((List.finRange 96).filter fun c => (s.duty c).isSome && c != e)
      = ((List.finRange 96).filter fun c => (s.duty c).isSome).erase e := by
    rw [((List.nodup_finRange 96).filter _).erase_eq_filter, List.filter_filter]
    simp only [Bool.and_comm]
  have mem : e ∈ (List.finRange 96).filter fun c => (s.duty c).isSome := by simp [hd]
  unfold State.waiting
  simp only [duty, split]
  rw [List.length_erase_of_mem mem]
  exact Nat.sub_add_cancel (List.length_pos_of_mem mem)

/-- Every item that the transmitter takes is one fewer, queued or waiting (R101, R105). -/
theorem takeHead_fewer {s : State} (h : s.queue ≠ []) :
    s.takeHead.queue.length + s.takeHead.waiting < s.queue.length + s.waiting := by
  obtain ⟨item, rest, hq⟩ := List.exists_cons_of_ne_nil h
  have place : (State.givePlace { s with queue := rest }).queue.length + (State.givePlace { s with queue := rest }).waiting
      = rest.length + s.waiting := by
    unfold State.givePlace
    split
    · next e _ =>
      rcases waiting_offerDuty (s := { s with queue := rest }) (e := e) with q | ⟨q, w⟩
      · rw [q]; rfl
      · have w : _ = s.waiting := w
        rw [q, ← w]
        dsimp only
        omega
    · rfl
  have same : s.takeHead.queue = (State.givePlace { s with queue := rest }).queue
      ∧ s.takeHead.waiting = (State.givePlace { s with queue := rest }).waiting := by
    unfold State.takeHead
    rw [hq]
    dsimp only
    split <;> exact ⟨rfl, rfl⟩
  rw [same.1, same.2, place, hq, List.length_cons]
  omega

theorem takeItems_done (k : Nat) : ∀ s : State, s.queue.length + s.waiting ≤ k → (State.takeItems k s).canTake = false := by
  induction k with
  | zero =>
    intro s h
    have : s.queue = [] := List.length_eq_zero_iff.mp (by omega)
    simp [State.takeItems, State.canTake, this]
  | succ k ih =>
    intro s h
    unfold State.takeItems
    split
    · next hc =>
      have hq : s.queue ≠ [] := by rintro q; simp [State.canTake, q] at hc
      exact ih _ (by have := takeHead_fewer hq; omega)
    · next hc => exact eq_false_of_ne_true hc

/-- The take at the end of an event leaves nothing to take (R103). -/
theorem serve_done (s : State) : s.serve.canTake = false := takeItems_done _ s le_rfl

/-! ### The same update in another form -/

/-- A change of a binding is what it does to the binding that the entry holds. -/
theorem modBinding_congr {s : State} {e : Fin 96} {f g : Binding → Binding} (h : ∀ b, s.binding e = some b → f b = g b) :
    s.modBinding e f = s.modBinding e g := by
  have q : (s.entry e).modBinding f = (s.entry e).modBinding g := by
    unfold Entry.modBinding
    rw [← State.binding_eq, Option.map_congr h]
  unfold State.modBinding
  rw [q]

/-! ### Time (R28, R209) -/

theorem passCounts_nextCount (s : State) : NextCount s (s.passCounts 1) := by
  refine ⟨rfl, fun n => ?_⟩
  rw [line_passCounts]
  rfl

/-- Settles O2: the next count, with its due events waiting. -/
theorem emptyQueueStepCountsTime : Obligations.EmptyQueueStepCountsTime := by
  intro s hp
  rw [step_nil s hp]
  refine ⟨fun hr => by rw [tick, if_pos hr], fun hr => ?_⟩
  refine ⟨s.passCounts 1, (s.passCounts 1).dueEvents, ?_, passCounts_nextCount s, dueEvents_dueNext s⟩
  rw [tick, if_neg (by simp [hr]), hp, List.nil_append]

/-- What every event of a count keeps, a count keeps. -/
theorem foldl_takeDue_settled (es : List Instr) (s : State) (h : Settled s) : Settled (es.foldl State.takeDue s) := by
  induction es generalizing s with
  | nil => exact h
  | cons i es ih => exact ih _ ⟨(takeDue_stops s i).resetAsserted.trans h.1, serve_done _⟩

theorem oneCount_settled {s : State} (h : Settled s) : Settled s.oneCount := foldl_takeDue_settled _ _ h

/-- Time up to a later count is `CountsPass` (log 5). -/
theorem advance_countsPass {s : State} (h : Settled s) (k : Nat) :
    Settled (s.advance (s.now + k)) ∧ (s.advance (s.now + k)).now = s.now + k ∧ CountsPass k s (s.advance (s.now + k)) := by
  induction k generalizing s with
  | zero =>
    rw [Nat.add_zero, advance_of_le le_rfl]
    exact ⟨h, rfl, rfl⟩
  | succ k ih =>
    have next := ih (oneCount_settled h)
    rw [oneCount_now, Nat.add_right_comm] at next
    rw [advance_oneCount (Nat.lt_add_of_pos_right k.succ_pos)]
    obtain ⟨settled, now, passes⟩ := next
    exact ⟨settled, now, _, _, _, passCounts_nextCount s, dueEvents_dueNext s, oneCount_executes s h.1, passes⟩

/-- An expiry commanded before its count is taken in that count (log 5). -/
theorem expiry_takenInCount {s : State} {d : Nat} {i : Instr} {timer : State → Option Nat} {act : State → State} (h : Settled s)
    (hi : exec i s = event (expiry timer act) s) (hd : timer s = some d) : TakenInCount s d i := by
  intro early
  obtain ⟨settled, now, passes⟩ := advance_countsPass h (d - s.now)
  rw [Nat.add_sub_cancel' early.le] at settled now passes
  refine ⟨s.advance d, ?_, now, passes⟩
  have q := expiry_of_early act hd early
  rw [hi, event_settled _ s h.1 (by rw [q]; exact settled.2), q]

/-- An expiry of a stopped timer is no event (R130; log 4). -/
theorem expiry_stopped {s : State} {timer : State → Option Nat} {act : State → State} (h : Settled s) (stopped : timer s = none) :
    event (expiry timer act) s = .next s := by
  have q : expiry timer act s = s := by simp [expiry, stopped]
  rw [event_settled _ s h.1 (by rw [q]; exact h.2), q]

/-- An expiry in its count or after it (R209). -/
theorem expiry_due {s : State} {d : Nat} {timer : State → Option Nat} {act : State → State} (h : Settled s) (hd : timer s = some d)
    (due : d ≤ s.now) : event (expiry timer act) s = .next (act s).serve := by
  have q : expiry timer act s = act s := by simp [expiry, hd, due]
  rw [event_running _ s h.1, q]

/-- The same for an act that gives the transmitter nothing to take. -/
theorem expiry_due_settled {s : State} {d : Nat} {timer : State → Option Nat} {act : State → State} (h : Settled s)
    (hd : timer s = some d) (due : d ≤ s.now) (hc : (act s).canTake = s.canTake) :
    event (expiry timer act) s = .next (act s) := by
  rw [expiry_due h hd due, serve_idle _ (hc.trans h.2)]

/-- A timer that an entry reads in the claim state `c` alone. -/
theorem claimTimer_stopped {s : State} {e : Fin 96} {c : ClaimState} {timer : Binding → Option Nat}
    (h : ∀ b d, s.binding e = some b → b.claim = c → timer b ≠ some d) :
    ((s.binding e).bind fun b => if b.claim = c then timer b else none) = none := by
  refine Option.bind_eq_none_iff.mpr fun b hb => ?_
  split
  · next hc => exact Option.eq_none_iff_forall_ne_some.mpr fun d => h b d hb hc
  · rfl

theorem claimTimer_running {s : State} {e : Fin 96} {b : Binding} {c : ClaimState} {d : Nat} {timer : Binding → Option Nat}
    (hb : s.binding e = some b) (hc : b.claim = c) (hd : timer b = some d) :
    ((s.binding e).bind fun b => if b.claim = c then timer b else none) = some d := by
  rw [hb, Option.bind_some, if_pos hc, hd]

/-- Settles O45: the deadline of a DEFENDED entry, and the pulse timer. -/
theorem deadlineAndPulseExpire : Obligations.DeadlineAndPulseExpire := by
  refine ⟨fun e s h => ⟨fun stopped => expiry_stopped h (claimTimer_stopped stopped), fun b d hb hc hd => ?_⟩,
    fun n s h => ⟨fun stopped => expiry_stopped h stopped,
      fun d hd => ⟨expiry_takenInCount h rfl hd, fun due => expiry_due_settled h hd due rfl⟩⟩⟩
  · have timer : s.defenceDeadline e = some d := claimTimer_running hb hc hd
    refine ⟨expiry_takenInCount h rfl timer, fun due => (expiry_due_settled h timer due rfl).trans ?_⟩
    refine congrArg _ (modBinding_congr fun c hc' => ?_)
    cases hb.symm.trans hc'
    rw [Binding.endDefence, if_pos hc]

/-! ### Probe timers and wake timeouts -/

theorem offerDuty_modSlot (s : State) (e : Fin 96) (n : Fin 16) (f : Slot → Slot) :
    (s.modSlot n f).offerDuty e = (s.offerDuty e).modSlot n f := by
  have slots := (offerDuty_moved s e).slots
  refine (offerDuty_update s (s.modSlot n f).slots s.mailbox e).trans ?_
  rw [← (offerDuty_moved s e).mailbox]
  simp [State.modSlot, State.setSlot, State.slot, slots]

/-- The examination at the end of probing does not read the queue. -/
theorem endOfProbing_offerDuty (s : State) (e : Fin 96) (n : Fin 16) :
    (s.offerDuty e).endOfProbing n = (s.endOfProbing n).offerDuty e := by
  have moved := offerDuty_moved s e
  have list : ((s.offerDuty e).slot n).addresses = (s.slot n).addresses := by rw [moved.slot]
  rw [endOfProbing_eq, endOfProbing_eq, slotTentative_congr list moved.claim, slotHeld_congr list moved.claim, offerDuty_modSlot]

theorem claim_modBinding (s : State) (e c : Fin 96) (f : Binding → Binding) :
    (s.modBinding e f).claim c = if e = c then (s.binding c).map fun b => (f b).claim else s.claim c := by
  unfold State.claim
  rw [binding_modBinding]
  split
  · rw [Option.map_map]
    rfl
  · rfl

/-- Probing ends with the final wait of the last TENTATIVE entry, which is held (R35, R36, R59). -/
theorem endOfProbing_last {s : State} {n : Fin 16} {e : Fin 96} (probing : (s.slot n).state = .probing) (listed : e ∈ (s.slot n).addresses)
    (held : s.claim e = some .held) (others : ∀ c ∈ (s.slot n).addresses, c ≠ e → s.claim c ≠ some .tentative) :
    s.endOfProbing n = s.setSlot n { s.slot n with state := .proxying, attention := (s.slot n).attention ||| 0x01#8 } := by
  have noTentative : s.slotTentative n = false := by
    refine eq_false_of_ne_true fun h => ?_
    obtain ⟨c, hc, tentative⟩ := slotTentative_iff.mp h
    by_cases q : c = e
    · rw [q, held] at tentative
      cases tentative
    · exact others c hc q tentative
  have anyHeld : s.slotHeld n = true := List.any_eq_true.mpr ⟨e, listed, by rw [State.isHeld, held]; rfl⟩
  rw [State.endOfProbing, if_pos ⟨probing, noTentative⟩, if_pos anyHeld]
  rfl

/-- Probing goes on while an entry is TENTATIVE. -/
theorem endOfProbing_not_yet {s : State} {n : Fin 16} (h : (s.slot n).state ≠ .probing ∨ s.slotTentative n = true) :
    s.endOfProbing n = s := by
  rw [State.endOfProbing, if_neg]
  rintro ⟨probing, noTentative⟩
  rcases h with h | h
  · exact h probing
  · exact Bool.false_ne_true (noTentative.symm.trans h)

/-- Settles O44: the offer and the examination at the end of probing do not read each other's records. -/
theorem probeTimerExpires : Obligations.ProbeTimerExpires := by
  intro e s h
  refine ⟨fun stopped => expiry_stopped h (claimTimer_stopped stopped), fun b d hb hc hd => ?_⟩
  have timer : s.probeTimer e = some d := claimTimer_running hb hc hd
  refine ⟨expiry_takenInCount h rfl timer, fun due => ⟨fun left => ?_, fun all => ?_⟩⟩
  · intro u
    have act : s.probeExpired e = u.offerDuty e := by
      simp only [State.probeExpired, hb, if_pos left]
      rfl
    have offered := offerDuty_offered u e
    exact ⟨_, offered, (expiry_due h timer due).trans (by rw [act]), offered.served⟩
  · intro w ends u examined
    have final : s.modBinding e (Binding.endFinalWait (s.slot b.owner).mode) = w := modBinding_congr fun c hc' => by
      cases hb.symm.trans hc'
      rfl
    have claim : ∀ c, w.claim c = if e = c then some .held else s.claim c := fun c => by
      rw [claim_modBinding]
      split
      · next q => rw [← q, hb]; rfl
      · rfl
    have ended : w.endOfProbing b.owner = u := by
      by_cases q : ends
      · obtain ⟨probing, listed, others⟩ := id q
        refine (endOfProbing_last (s := w) probing listed ((claim e).trans (if_pos rfl)) fun c hc ne => ?_).trans (if_pos q).symm
        rw [claim, if_neg (Ne.symm ne)]
        exact others c hc ne
      · refine (endOfProbing_not_yet (s := w) ((examined.resolve_left q).imp_right ?_)).trans (if_neg q).symm
        rintro ⟨c, hc, ne, tentative⟩
        exact slotTentative_iff.mpr ⟨c, hc, (claim c).trans ((if_neg (Ne.symm ne)).trans tentative)⟩
    have act : s.probeExpired e = u.offerDuty e := by
      simp only [State.probeExpired, hb, if_neg (Nat.not_lt.mpr all)]
      rw [final, endOfProbing_offerDuty, ended]
    have offered := offerDuty_offered u e
    exact ⟨_, offered, (expiry_due h timer due).trans (by rw [act]), offered.served⟩

/-- Settles O46: an expiry in WAKING begins a further attempt, or the slot enters DARK. -/
theorem wakeTimeoutExpires : Obligations.WakeTimeoutExpires := by
  intro n s h
  refine ⟨fun stopped => expiry_stopped h ?_, fun d hd hw => ?_⟩
  · rw [State.timeoutTimer]
    split
    · next hw => exact stopped.resolve_right (not_not.mpr hw)
    · rfl
  have timer : s.timeoutTimer n = some d := by rw [State.timeoutTimer, if_pos hw, hd]
  refine ⟨expiry_takenInCount h rfl timer, fun due => ⟨fun left => ?_, fun all => ?_⟩⟩
  · have act : s.timeoutExpired n = s.setSlot n (attempted s.now { s.slot n with attempts := (s.slot n).attempts + 1 }) := if_pos left
    rw [← act]
    exact expiry_due_settled h timer due (by rw [act]; rfl)
  · have act : s.timeoutExpired n = s.enterDark n := if_neg (Nat.not_lt.mpr all)
    refine (expiry_due_settled h timer due ?_).trans (by rw [act]; rfl)
    rw [act]
    rfl

end Sys2Proof.Machine

namespace Sys2Proof.Machine

/-! ### Arming and the changes of AWAKE_n (R28, R30, R33, R44, R182) -/

/-- Offers do not read the mailbox. -/
theorem offerDuties_mailbox (s : State) (m : Mailbox) (es : List (Fin 96)) :
    State.offerDuties { s with mailbox := m } es = { s.offerDuties es with mailbox := m } := by
  have fold : ∀ (l : List (Fin 96)) (s : State),
      l.foldl State.offerDuty { s with mailbox := m } = { l.foldl State.offerDuty s with mailbox := m } := by
    intro l
    induction l with
    | nil => exact fun _ => rfl
    | cons e l ih =>
      intro s
      have step : State.offerDuty { s with mailbox := m } e = { s.offerDuty e with mailbox := m } := by
        refine (offerDuty_update s s.slots m e).trans ?_
        rw [← (offerDuty_moved s e).slots]
      rw [List.foldl_cons, List.foldl_cons, step, ih]
  exact fold _ s

/-- A command may complete before its duties are offered, or after (R168). -/
theorem complete_offerDuties (s : State) (es : List (Fin 96)) (r : Result) (data : List Byte) :
    (s.offerDuties es).complete r data = (s.complete r data).offerDuties es := by
  refine Eq.trans ?_ (offerDuties_mailbox s (s.complete r data).mailbox es).symm
  unfold State.complete
  rw [(offerDuties_moved s es).mailbox]

theorem armBody_eq {slot : Byte} {n : Fin 16} (u : State) (hn : slotArg slot = some n) : armBody slot u =
    if (u.slot n).state ≠ .staged then .refuse .wrongState
    else if (u.slot n).mode = some .own ∧ u.settings.station = 0 then .refuse .noStation
    else if (u.slot n).addresses = [] then .refuse .emptySlot
    else if (u.line n).taken then .done [SlotState.armed.code] (u.modSlot n fun x => { x with state := .armed })
    else .done [SlotState.probing.code] (u.probingStart n) := by
  rw [armBody, hn]

/-- Settles O24: the checks in their order, and the probing start before its offers. -/
theorem armOutcome : Obligations.ArmOutcome := by
  intro slot s ready i
  refine ⟨fun h => go_refused ready (by rw [armBody, slotArg_eq_none.mpr h]), fun n hn => ?_⟩
  intro staged station
  have body := armBody_eq (s.placeCommand i) (slotArg_of_lt hn)
  refine ⟨fun hs => go_refused ready (body.trans (if_pos hs)),
    fun hs hst => go_refused ready (body.trans ((if_neg (not_not.mpr hs)).trans (if_pos (not_not.mp hst)))),
    fun hs hst ha => go_refused ready (body.trans ((if_neg (not_not.mpr hs)).trans ((if_neg hst).trans (if_pos ha)))),
    fun hs hst ha ht => go_success ready ?_ ready.noTake, fun hs hst ha ht => ?_⟩
  · exact body.trans ((if_neg (not_not.mpr hs)).trans ((if_neg hst).trans ((if_neg ha).trans (if_pos ht))))
  · intro u
    have probing := body.trans ((if_neg (not_not.mpr hs)).trans ((if_neg hst).trans ((if_neg ha).trans
      (if_neg (ne_true_of_eq_false ht)))))
    have offered := offerDuties_offered u (s.slot n).addresses
    refine ⟨_, offered, (go_done_serve ready probing).trans (congrArg (fun t => Host.Outcome.next (State.serve t)) ?_), offered.served⟩
    exact complete_offerDuties _ _ _ _

theorem awakeRise_kept {n : Fin 16} {s : State} (h : (s.slot n).state.standsIn = false) : awakeRise n s = s.takeLevel n true :=
  if_neg (by rw [Bool.not_eq_true]; exact h)

theorem awakeRise_standsIn {n : Fin 16} {s : State} (h : (s.slot n).state.standsIn = true) :
    awakeRise n s = (s.takeLevel n true).handback n := if_pos h

theorem awakeFall_kept {n : Fin 16} {s : State} (h : (s.slot n).state ≠ .armed) : awakeFall n s = s.takeLevel n false := if_neg h

theorem awakeFall_armed {n : Fin 16} {s : State} (h : (s.slot n).state = .armed) :
    awakeFall n s = (s.takeLevel n false).probingStart n := if_pos h

/-- An event whose last act is the offering of duties of `u`, and then the transmitter's take. -/
theorem event_offers {f : State → State} {s u : State} {es : List (Fin 96)} (hr : s.resetAsserted = false)
    (h : f s = u.offerDuties es) : ∃ v, Offered u v es ∧ event f s = .next v.serve ∧ Served u v := by
  have offered := offerDuties_offered u es
  exact ⟨_, offered, (event_running f s hr).trans (by rw [h]), offered.served⟩

/-- Settles O33: the filter's level, and the probing start from ARMED. -/
theorem fallStartsProbing : Obligations.FallStartsProbing := by
  intro n s h x l
  refine ⟨fun other => ?_, fun armed => event_offers h.1 (awakeFall_armed armed)⟩
  have kept := awakeFall_kept other
  exact (event_settled _ s h.1 (by rw [kept]; exact h.2)).trans (congrArg _ kept)

/-- Settles O32: the filter's level, and the handback of a slot that stands in. -/
theorem riseHandsBack : Obligations.RiseHandsBack := by
  intro n s h x l
  refine ⟨fun other => ?_, fun standsIn => ?_⟩
  · have kept := awakeRise_kept other
    exact (event_settled _ s h.1 (by rw [kept]; exact h.2)).trans (congrArg _ kept)
  · intro own u
    have start : awakeRise n s = u.offerDuties (s.slot n).addresses := by
      refine (awakeRise_standsIn standsIn).trans (congrArg (fun g => State.offerDuties
        ((l.modBindings (s.slot n).addresses g).setSlot n { s.slot n with
          state := if (s.slot n).autoRearm then .armed else .staged, wakeLine := false, pulseDue := none
          timeoutDue := none, attention := (s.slot n).attention ||| 0x40#8 }) (s.slot n).addresses)
        (show Binding.handBack (s.slot n).mode = _ from ?_))
      funext b
      unfold Binding.handBack
      cases b.claim <;> rfl
    exact event_offers h.1 start

/-! ### RELEASE (R51, R54, R160, R185 to R187) -/

theorem releaseBody_refuses {slot announce : Byte} (u : State) (h : slotArg slot = none ∨ flagArg announce = none) :
    releaseBody slot announce u = .refuse .badParameter := by
  rw [releaseBody]
  cases hn : slotArg slot with
  | none => rfl
  | some n => rw [h.resolve_left (by simp [hn])]

theorem releaseBody_eq {slot announce : Byte} {n : Fin 16} {on : Bool} (u : State) (hn : slotArg slot = some n)
    (ha : flagArg announce = some on) : releaseBody slot announce u =
      if (u.slot n).state = .vacant then .refuse .wrongState
      else if on ∧ (u.slot n).mode = some .own ∧ u.slotHeld n then .started (u.enterReleasing n)
      else .done (releaseResponse n immediateForm (u.slot n)) (u.becomeVacant n) := by
  rw [releaseBody, hn, ha]

/-- While the mailbox is IDLE no handback is outstanding (R8, R51). -/
theorem ReleaseLaw.outstanding_idle {s : State} (h : ReleaseLaw s) (idle : s.mailbox.state = .idle) (n : Fin 16) :
    (s.slot n).outstanding = 0 := ((releaseLaw_idle (running_of_idle idle)).mp h n).2

/-- Settles O26: the checks in their order, and the slot VACANT. -/
theorem releaseImmediate : Obligations.ReleaseImmediate := by
  intro slot announce s ready records i
  refine ⟨fun bad => go_refused ready ?_, fun n hn ha => ⟨fun vacant => go_refused ready ?_, fun other form => ?_⟩⟩
  · refine releaseBody_refuses _ ((Decidable.not_and_iff_or_not.mp bad).imp (fun h => ?_) flagArg_eq_none)
    exact slotArg_eq_none.mpr (Nat.le_of_not_lt h)
  · exact (releaseBody_eq _ (slotArg_of_lt hn) (flagArg_eq ha)).trans (if_pos vacant)
  · have body := (releaseBody_eq (s.placeCommand i) (slotArg_of_lt hn) (flagArg_eq ha)).trans ((if_neg other).trans
      (if_neg fun h => form ⟨of_decide_eq_true h.1, h.2⟩))
    obtain ⟨vacated, kept⟩ := becomeVacant_vacated records n
    have number : countByte n.val = slot := by rw [hn]; exact BitVec.ofNat_toNat 8 slot |>.trans (BitVec.setWidth_eq slot)
    refine ⟨success i (s.becomeVacant n) (releaseResponse n immediateForm (s.slot n)), go_success ready body ready.noTake, vacated, kept, ?_⟩
    intro u freed
    have outcome : success i (s.becomeVacant n) (releaseResponse n immediateForm (s.slot n))
        = success i u [slot, 0x01#8, freed, countByte (s.slot n).outstanding] := by
      rw [← number]
      rfl
    refine ⟨outcome, fun law => outcome.trans ?_⟩
    rw [law.outstanding_idle ready.2]
    rfl

/-- Settles O27: the slot enters RELEASING, and then its HANDBACK duties are offered. -/
theorem releaseWithAnnouncement : Obligations.ReleaseWithAnnouncement := by
  intro slot s n ready hn other own anyHeld held i p u
  have body := (releaseBody_eq (announce := 0x01#8) p (slotArg_of_lt hn) rfl).trans ((if_neg other).trans
    (if_pos ⟨rfl, own, anyHeld⟩))
  have offered := offerDuties_offered u held
  have each : Binding.release = fun b : Binding => { b with
        claim := .quiet, probeDue := none, defenceDue := none
        duty := if b.claim = .held ∨ b.claim = .defended then some .handback else none } := by
    funext b
    cases b with
    | mk o a c => cases c <;> rfl
  have start : p.enterReleasing n = u.offerDuties held := by
    unfold State.enterReleasing
    rw [each]
    rfl
  refine ⟨_, offered, (go_started ready body).trans (by rw [start]), offered.served, fun empty => ?_⟩
  obtain ⟨e, listed, he⟩ := List.any_eq_true.mp anyHeld
  exact List.ne_nil_of_mem (List.mem_filter.mpr ⟨listed, he⟩) empty

end Sys2Proof.Machine

namespace Sys2Proof.Machine

/-! ### Claims against an entry (R61 to R67) -/

/-- `t` is `s` after an answer was offered or dropped: the records of slots and entries and the frames taken are the same (R99). -/
structure AnswerOffered (s t : State) : Prop where
  slots : t.slots = s.slots
  entries : t.entries = s.entries
  framesTaken : t.counters.framesTaken = s.counters.framesTaken

theorem answerStep_offered (s : State) (source : LinkAddr) (r : ResFrame) (evidence : Option (Fin 96)) :
    AnswerOffered s (s.answerStep source r evidence) := by
  have offer : ∀ item, AnswerOffered s (s.offerAnswer item) := fun item => by
    unfold State.offerAnswer
    split <;> exact ⟨rfl, rfl, rfl⟩
  unfold State.answerStep
  split
  · exact ⟨rfl, rfl, rfl⟩
  · split
    · exact offer _
    · exact ⟨rfl, rfl, rfl⟩

/-- The claim step on a frame that makes a claim against the entry `e` (R61, R62). -/
theorem claimStep_eq {s : State} {source : LinkAddr} {r : ResFrame} {a : Addr} {form : ClaimForm} {e : Fin 96} {b : Binding}
    (claimed : r.claimed = some (a, form)) (found : s.lookup a = some e) (bound : s.binding e = some b)
    (client : (s.slot b.owner).client ≠ some source) (station : ¬ (s.settings.station ≠ 0 ∧ source = s.settings.station)) :
    s.claimStep source r = ((s.applyEvidence e b form).1, if (s.applyEvidence e b form).2 then some e else none) := by
  have foreign : s.foreignSource b source = true := by
    simp only [State.foreignSource, Bool.and_eq_true, bne_iff_ne, Bool.not_eq_true', Bool.and_eq_false_iff, beq_eq_false_iff_ne,
      bne_eq_false_iff_eq]
    exact ⟨client, (Decidable.not_and_iff_or_not.mp station).imp_left not_not.mp⟩
  unfold State.claimStep
  simp only [claimed, found, bound, foreign, if_true]

/-- A taken frame that claims an entry: the claim step, the answer step, and the transmitter's take (R89, R103). -/
theorem exec_claims {bytes : List Byte} {fcsGood : Bool} {s : State} {r : ResFrame} {form : ClaimForm} {e : Fin 96} {b : Binding}
    (h : s.resetAsserted = false) (claims : Claims bytes fcsGood s r form e b) {u : State}
    (evidence : (s.count DeviceCounters.countTaken).applyEvidence e b form = (u, true)) :
    ∃ f, s.accept bytes fcsGood = .taken f
      ∧ exec (.frameTaken bytes fcsGood) s = .next (u.answerStep (sourceLink f) r (some e)).serve := by
  obtain ⟨f, a, accepted, classified, claimed, found, bound, client, station⟩ := claims
  refine ⟨f, accepted, (event_running _ s h).trans ?_⟩
  have step := claimStep_eq (s := s.count DeviceCounters.countTaken) claimed found bound client station
  rw [evidence] at step
  have classified : (s.count DeviceCounters.countTaken).classify f = .resolution r := classified
  simp only [takeFrame, accepted, State.dispatchFrame, classified, step, if_true]

/-- Evidence that makes the entry `e` LOST and leaves its owner's record as `y`: what the event leaves (R63, R65, R67). -/
theorem exec_entryLost {bytes : List Byte} {fcsGood : Bool} {s : State} {r : ResFrame} {form : ClaimForm} {e : Fin 96} {b : Binding}
    {y : Slot} (h : s.resetAsserted = false) (claims : Claims bytes fcsGood s r form e b)
    (evidence : (s.count DeviceCounters.countTaken).applyEvidence e b form
      = (((s.count DeviceCounters.countTaken).modBinding e Binding.lose).setSlot b.owner y, true)) :
    ∃ t, exec (.frameTaken bytes fcsGood) s = .next t
      ∧ t.binding e = some b.lose
      ∧ (∀ c, c ≠ e → MayOwe (s.entry c) (t.entry c))
      ∧ (∀ n, t.slot n = if n = b.owner then y else s.slot n)
      ∧ t.counters.framesTaken = satInc s.counters.framesTaken
      ∧ ∀ f, s.accept bytes fcsGood = .taken f → ∃ w,
        Answered (((s.count DeviceCounters.countTaken).modBinding e Binding.lose).setSlot b.owner y) f r (some e) w ∧ t = w.serve := by
  obtain ⟨f, accepted, exec⟩ := exec_claims h claims evidence
  obtain ⟨-, -, -, -, -, -, bound, -, -⟩ := claims
  generalize hu : ((s.count DeviceCounters.countTaken).modBinding e Binding.lose).setSlot b.owner y = u at exec ⊢
  have offered := answerStep_offered u (sourceLink f) r (some e)
  have moved := serve_moved (u.answerStep (sourceLink f) r (some e))
  have entry : ∀ c, (u.answerStep (sourceLink f) r (some e)).entry c
      = if e = c then (s.entry c).modBinding Binding.lose else s.entry c := fun c => by
    rw [State.entry_eq, offered.entries, ← State.entry_eq, ← hu]
    exact entry_modBinding (s.count _) e c _
  refine ⟨_, exec, ?_, fun c hc => ?_, fun n => ?_, ?_, fun f' accepted' => ?_⟩
  · have lost : (u.answerStep (sourceLink f) r (some e)).binding e = some b.lose := by
      rw [State.binding_eq, entry, if_pos rfl, Entry.binding_modBinding, ← State.binding_eq, bound]
      rfl
    rcases moved.binding e with q | q <;> rw [q, lost]
    rfl
  · have owes := moved.entry c
    rwa [entry, if_neg (Ne.symm hc)] at owes
  · rw [moved.slot, State.slot_eq, offered.slots, ← State.slot_eq, ← hu, slot_setSlot]
    simp only [eq_comm (a := n)]
    rfl
  · obtain ⟨k, counters⟩ := moved.counters
    rw [counters]
    refine offered.framesTaken.trans ?_
    rw [← hu]
    rfl
  · cases accepted.symm.trans accepted'
    exact ⟨_, answerStep_answered u f r (some e), rfl⟩

theorem claim_loseEntry (s : State) (n : Fin 16) {e : Fin 96} {b : Binding} (hb : s.binding e = some b) (c : Fin 96) :
    (s.loseEntry e n).claim c = if c = e then some .lost else s.claim c := by
  have q : (s.loseEntry e n).claim c = (s.modBinding e Binding.lose).claim c := rfl
  rw [q, claim_modBinding]
  by_cases hc : c = e
  · rw [if_pos hc, if_pos hc.symm, hc, hb]
    rfl
  · rw [if_neg hc, if_neg (Ne.symm hc)]

/-- Once `e` is LOST the other entries of the slot decide the examination (R35). -/
theorem slotTentative_loseEntry (s : State) (n : Fin 16) {e : Fin 96} {b : Binding} (hb : s.binding e = some b) :
    (s.loseEntry e n).slotTentative n = true ↔ ∃ c ∈ (s.slot n).addresses.filter fun c => c != e, s.claim c = some .tentative := by
  have list : ((s.loseEntry e n).slot n).addresses = (s.slot n).addresses := by
    rw [loseEntry_eq, slot_modSlot, if_pos rfl]
    rfl
  simp only [slotTentative_iff, list, claim_loseEntry s n hb, List.mem_filter, bne_iff_ne, and_assoc]
  refine exists_congr fun c => and_congr_right fun _ => ?_
  split
  · next q => simp [q]
  · next q => simp [q]

theorem slotHeld_loseEntry (s : State) (n : Fin 16) {e : Fin 96} {b : Binding} (hb : s.binding e = some b) :
    (s.loseEntry e n).slotHeld n = true ↔ ∃ c ∈ (s.slot n).addresses.filter fun c => c != e, s.isHeld c = true := by
  have list : ((s.loseEntry e n).slot n).addresses = (s.slot n).addresses := by
    rw [loseEntry_eq, slot_modSlot, if_pos rfl]
    rfl
  simp only [State.slotHeld, List.any_eq_true, list, State.isHeld, claim_loseEntry s n hb, List.mem_filter, bne_iff_ne, and_assoc]
  refine exists_congr fun c => and_congr_right fun _ => ?_
  split
  · next q => simp [q, ClaimState.isHeld]
  · next q => simp [q]

theorem claimTentative_eq (s : State) (e : Fin 96) (n : Fin 16) : s.claimTentative e n = (s.modBinding e Binding.lose).setSlot n
    (Slot.endProbing ((s.loseEntry e n).slotTentative n) ((s.loseEntry e n).slotHeld n) ((s.slot n).claimed .conflict)) := by
  unfold State.claimTentative
  rw [endOfProbing_eq, loseEntry_eq, modSlot_modSlot, modBinding_eq]
  rfl

/-- Settles O39: the entry is LOST, and the examination at the end of probing gives its slot's record. -/
theorem claimAgainstTentative : Obligations.ClaimAgainstTentative := by
  intro bytes fcsGood s r form e b h claims hc probing
  have bound : s.binding e = some b := by
    obtain ⟨-, -, -, -, -, -, bound, -⟩ := claims
    exact bound
  have evidence : (s.count DeviceCounters.countTaken).applyEvidence e b form
      = ((s.count DeviceCounters.countTaken).claimTentative e b.owner, true) := by
    simp only [State.applyEvidence, hc]
  rw [claimTentative_eq] at evidence
  obtain ⟨t, exec, lost, others, slots, counted, answered⟩ := exec_entryLost h.1 claims evidence
  have tentative := slotTentative_loseEntry (s.count DeviceCounters.countTaken) b.owner bound
  have held := slotHeld_loseEntry (s.count DeviceCounters.countTaken) b.owner bound
  have slot := (slots b.owner).trans (if_pos rfl)
  have ended : (∀ c ∈ (s.slot b.owner).addresses.filter fun c => c != e, s.claim c ≠ some .tentative) →
      (State.slotTentative _ b.owner) = false := fun h => eq_false_of_ne_true fun q => by
    obtain ⟨c, hc, q⟩ := tentative.mp q
    exact h c hc q
  refine ⟨t, exec, lost, others, fun n hn => (slots n).trans (if_neg hn), counted, fun remains => ?_, fun past holds => ?_,
    fun past unheld => ?_, fun f accepted => ?_⟩
  · rw [slot, tentative.mpr remains, Slot.endProbing, if_neg (by simp)]
    rfl
  · rw [slot, held.mpr holds, Slot.endProbing, if_pos ⟨probing, ended past⟩, if_pos rfl]
    rfl
  · have empty : ¬ (State.slotHeld _ b.owner) = true := fun q => by
      obtain ⟨c, hc, q⟩ := held.mp q
      exact Bool.false_ne_true ((unheld c hc).symm.trans q)
    rw [slot, Slot.endProbing, if_pos ⟨probing, ended past⟩, if_neg empty]
    rfl
  · rw [slot]
    exact answered f accepted

/-- A second claim as one update of the entry and of its slot's record (R38, R65). -/
theorem secondClaim_eq (s : State) (e : Fin 96) (n : Fin 16) : s.secondClaim e n = (s.modBinding e Binding.lose).setSlot n
    (if (s.slot n).loss = .wake ∧ (s.slot n).state = .proxying then woken s.now .loss ((s.slot n).claimed .conflict)
      else (s.slot n).claimed .conflict) := by
  have lost : s.loseEntry e n = (s.modBinding e Binding.lose).modSlot n (Slot.claimed .conflict) := by
    rw [loseEntry_eq, modBinding_eq]
  have slot : ((s.modBinding e Binding.lose).modSlot n (Slot.claimed .conflict)).slot n = (s.slot n).claimed .conflict :=
    (slot_modSlot _ n n _).trans (if_pos rfl)
  unfold State.secondClaim State.wakeTrigger State.startWake
  simp only [lost, slot]
  by_cases wake : (s.slot n).loss = .wake
  · by_cases proxying : (s.slot n).state = .proxying
    · rw [if_pos (show ((s.slot n).claimed .conflict).loss = .wake from wake),
        if_pos (show ((s.slot n).claimed .conflict).state = .proxying from proxying), if_pos ⟨wake, proxying⟩, modSlot_modSlot]
      rfl
    · rw [if_pos (show ((s.slot n).claimed .conflict).loss = .wake from wake),
        if_neg (show ¬ ((s.slot n).claimed .conflict).state = .proxying from proxying), if_neg fun h => proxying h.2]
      rfl
  · rw [if_neg (show ¬ ((s.slot n).claimed .conflict).loss = .wake from wake), if_neg fun h => wake h.1]
    rfl

/-- Settles O41: the entry is LOST, and the loss policy gives its slot's record. -/
theorem secondClaim : Obligations.SecondClaim := by
  intro bytes fcsGood s r e b h claims hc defends
  have evidence : (s.count DeviceCounters.countTaken).applyEvidence e b .use
      = ((s.count DeviceCounters.countTaken).secondClaim e b.owner, true) := by
    have defends : ((s.count DeviceCounters.countTaken).slot b.owner).state.defends = true := defends
    simp only [State.applyEvidence, hc, defends, if_true]
  rw [secondClaim_eq] at evidence
  obtain ⟨t, exec, lost, others, slots, -, answered⟩ := exec_entryLost h.1 claims evidence
  exact ⟨t, exec, lost, others, slots, answered⟩

end Sys2Proof.Machine

namespace Sys2Proof.Machine

/-! ### A release in progress and its handback set (R51 to R53) -/

/-- `s` with the release `r` in progress, its outstanding handbacks counted (R51). -/
def State.releasing (s : State) (r : Release) : State :=
  { s.modSlot r.slot (fun x => { x with outstanding := r.set.length }) with
    mailbox := { s.mailbox with state := .executing r } }

/-- The release after entry `e` left its handback set, if it was in it (R52). -/
def Release.leave (discard : Bool) (r : Release) (e : Fin 96) : Release :=
  if e ∈ r.set then { r with set := r.set.erase e, mark := r.mark || discard } else r

/-- `s` after a release of slot `n` with announcement ended with result `res`, no handback outstanding (R53, R54, R187). -/
def State.released (s : State) (n : Fin 16) (res : Result) : State :=
  { s.becomeVacant n with
    mailbox := (s.complete res [countByte n.val, announcedForm, countByte (s.slot n).addresses.length, 0x00#8]).mailbox }

theorem slot_releasing (s : State) (r : Release) :
    (s.releasing r).slot r.slot = { s.slot r.slot with outstanding := r.set.length } :=
  (slot_modSlot s r.slot r.slot fun x => { x with outstanding := r.set.length }).trans (if_pos rfl)

/-- The records of a release in progress hold it with its outstanding handbacks counted (R51). -/
theorem ReleaseLaw.releasing_self {s : State} (h : ReleaseLaw s) {r : Release} (hr : s.mailbox.state = .executing r) :
    s.releasing r = s := by
  obtain ⟨count, -⟩ := h.2.1 r hr
  unfold State.releasing
  rw [modSlot_self (by rw [← count]), ← hr]

theorem leaveSet_releasing (d : Bool) (s : State) (r : Release) (e : Fin 96) :
    (s.releasing r).leaveSet d e = s.releasing (r.leave d e) := by
  unfold Release.leave
  by_cases he : e ∈ r.set
  · have twice : ((s.modSlot r.slot fun x => { x with outstanding := r.set.length }).modSlot r.slot
        fun x => { x with outstanding := x.outstanding - 1 })
        = s.modSlot r.slot fun x => { x with outstanding := (r.set.erase e).length } := by
      rw [modSlot_modSlot, List.length_erase_of_mem he]
    have left : (s.releasing r).leaveSet d e
        = { (s.modSlot r.slot fun x => { x with outstanding := r.set.length }).modSlot r.slot
              (fun x => { x with outstanding := x.outstanding - 1 }) with
            mailbox := { s.mailbox with
              state := .executing { r with set := r.set.erase e, mark := r.mark || d } } } := if_pos he
    rw [left, twice, if_pos he]
    rfl
  · rw [if_neg he]
    exact if_neg he

theorem foldl_leaveSet_releasing (d : Bool) (es : List (Fin 96)) (s : State) (r : Release) :
    es.foldl (State.leaveSet d) (s.releasing r) = s.releasing (es.foldl (Release.leave d) r) := by
  induction es generalizing r with
  | nil => rfl
  | cons e es ih => rw [List.foldl_cons, List.foldl_cons, leaveSet_releasing, ih]

/-- Several entries leave the set under the discard mark (R52). -/
theorem foldl_leave_discard (es : List (Fin 96)) (r : Release) : es.foldl (Release.leave true) r
    = { slot := r.slot, set := r.set.diff es, mark := r.mark || decide (r.set.diff es ≠ r.set) } := by
  induction es generalizing r with
  | nil => simp
  | cons e es ih =>
    rw [List.foldl_cons, ih, List.diff_cons, Release.leave]
    split
    · next he =>
      have fewer : (r.set.erase e).diff es ≠ r.set := fun q => by
        have le := (List.diff_sublist (r.set.erase e) es).length_le
        rw [q, List.length_erase_of_mem he] at le
        have := List.length_pos_of_mem he
        omega
      simp [fewer]
    · next he => rw [List.erase_of_not_mem he]

theorem leave_slot (d : Bool) (es : List (Fin 96)) (r : Release) : (es.foldl (Release.leave d) r).slot = r.slot := by
  induction es generalizing r with
  | nil => rfl
  | cons e es ih =>
    rw [List.foldl_cons, ih, Release.leave]
    split <;> rfl

/-- Becoming VACANT does not read the slot's count of outstanding handbacks. -/
theorem becomeVacant_outstanding (s : State) (n : Fin 16) (k : Nat) :
    (s.modSlot n fun x => { x with outstanding := k }).becomeVacant n = s.becomeVacant n := by
  have slot : (s.modSlot n fun x => { x with outstanding := k }).slot n = { s.slot n with outstanding := k } :=
    (slot_modSlot s n n _).trans (if_pos rfl)
  have slots : ((s.modSlot n fun x => { x with outstanding := k }).becomeVacant n).slots = (s.becomeVacant n).slots :=
    Vector.ext fun i hi => by
      have left := slot_becomeVacant (s.modSlot n fun x => { x with outstanding := k }) n ⟨i, hi⟩
      refine left.trans (Eq.trans ?_ (slot_becomeVacant s n ⟨i, hi⟩).symm)
      by_cases q : n = ⟨i, hi⟩
      · simp [q]
      · simp [q]
  have rest : (s.modSlot n fun x => { x with outstanding := k }).becomeVacant n
      = { s.becomeVacant n with slots := ((s.modSlot n fun x => { x with outstanding := k }).becomeVacant n).slots } := by
    unfold State.becomeVacant
    rw [slot]
    rfl
  rw [rest, slots]

/-- A release ends with the last handback (R53, R187). -/
theorem finishRelease_releasing {s : State} {r : Release} (last : r.set = []) (res : Result) :
    (s.releasing r).finishRelease r.slot res = s.released r.slot res := by
  have vacant : (s.releasing r).becomeVacant r.slot = { s.becomeVacant r.slot with
      mailbox := { s.mailbox with state := .executing r } } := by
    rw [← becomeVacant_outstanding s r.slot r.set.length]
    rfl
  unfold State.finishRelease
  rw [vacant, slot_releasing, last]
  rfl

/-- The release in progress when the handbacks of one event have left its set: it goes on, or ends (R52, R53). -/
theorem ReleaseLaw.handbacksLeft {s : State} (h : ReleaseLaw s) {r left : Release} (hr : s.mailbox.state = .executing r) {d : Bool}
    {es : List (Fin 96)} (hl : es.foldl (Release.leave d) r = left) : (es.foldl (State.leaveSet d) s).endReleaseIfDone =
      if left.set = [] then s.released r.slot (if left.mark then .partialEnd else .ok) else s.releasing left := by
  have fold := foldl_leaveSet_releasing d es s r
  rw [h.releasing_self hr, hl] at fold
  have same : left.slot = r.slot := by rw [← hl, leave_slot]
  have done : (s.releasing left).endReleaseIfDone = if ((s.releasing left).slot left.slot).outstanding = 0 then
      (s.releasing left).finishRelease left.slot (if left.mark then .partialEnd else .ok) else s.releasing left := rfl
  rw [fold, done, slot_releasing]
  by_cases last : left.set = []
  · rw [if_pos last, if_pos (by rw [last]; rfl), finishRelease_releasing last, same]
  · rw [if_neg last, if_neg fun q => last (List.length_eq_zero_iff.mp q)]

/-- Without a release in progress no handback leaves a set (R52). -/
theorem handbacksLeft_idle {s : State} (h : ∀ r, s.mailbox.state ≠ .executing r) (d : Bool) (es : List (Fin 96)) :
    (es.foldl (State.leaveSet d) s).endReleaseIfDone = s := by
  have stays : ∀ e, s.leaveSet d e = s := fun e => by
    unfold State.leaveSet
    split
    · next r hr => exact absurd hr (h r)
    · rfl
    · rfl
  have fold : es.foldl (State.leaveSet d) s = s := by
    induction es with
    | nil => rfl
    | cons e es ih => rw [List.foldl_cons, stays, ih]
  rw [fold]
  unfold State.endReleaseIfDone
  split
  · next r hr => exact absurd hr (h r)
  · rfl
  · rfl

/-! ### Link loss (R52, R53, R113 to R115) -/

theorem countDiscards_eq (c : DeviceCounters) (k : Nat) :
    c.countDiscards k = { c with itemsDiscarded := satInc^[k] c.itemsDiscarded } := by
  induction k with
  | zero => rfl
  | succ k ih => rw [DeviceCounters.countDiscards, ih, Function.iterate_succ_apply']; rfl

/-- The records after the discards of a link loss, before the slot controller hears of the HANDBACKs among them (R114, R115). -/
def State.linkDiscards (s : State) : State :=
  { s with
    link := false
    queue := []
    tx := none
    entries := tabulate 96 fun e => (s.entry e).modBinding Binding.linkLoss
    counters := s.counters.countDiscards (s.queue.length + s.tx.toList.length) }

/-- The entries whose HANDBACK a link loss discards, as duty, item or frame (R52). -/
def State.discardedHandbacks (s : State) : List (Fin 96) := s.lostHandbacks ++ s.pendingHandbacks

theorem linkFall_up {s : State} (h : s.link = true) : linkFall s =
    ((s.discardedHandbacks.foldl (State.leaveSet true) s.linkDiscards).endReleaseIfDone).raiseDevice .linkDown := if_pos h

theorem linkDiscards_acts (s : State) : Acts s s.linkDiscards := by
  have entries : s.linkDiscards.entries = (s.modBindings (List.finRange 96) Binding.linkLoss).entries := by
    simp [State.modBindings, State.linkDiscards, List.mem_finRange]
  exact (Acts.one .linkLost).trans (.same rfl entries rfl rfl rfl rfl rfl)

theorem Item.eq_handback {i : Item} : i.kind = .duty .handback ↔ ∃ e g, i = .duty .handback e g := by
  cases i <;> simp [Item.kind]

theorem mem_discardedHandbacks {s : State} {e : Fin 96} : e ∈ s.discardedHandbacks ↔
    s.duty e = some .handback ∨ .duty .handback e (s.entry e).gen ∈ s.queue
      ∨ ∃ x, s.tx = some x ∧ x.kind = .duty .handback ∧ x.entry = e ∧ x.gen = (s.entry e).gen := by
  have sent : (∃ x, (s.tx = some x ∧ x.kind = .duty .handback ∧ x.gen = (s.entry x.entry).gen) ∧ x.entry = e)
      ↔ ∃ x, s.tx = some x ∧ x.kind = .duty .handback ∧ x.entry = e ∧ x.gen = (s.entry e).gen := by
    refine exists_congr fun x => ⟨?_, ?_⟩
    · rintro ⟨⟨h1, h2, h3⟩, rfl⟩
      exact ⟨h1, h2, rfl, h3⟩
    · rintro ⟨h1, h2, rfl, h3⟩
      exact ⟨⟨h1, h2, h3⟩, rfl⟩
  have queued : (∃ i, (i ∈ s.queue ∧ i.kind = .duty .handback ∧ i.gen = (s.entry i.entry).gen) ∧ i.entry = e)
      ↔ .duty .handback e (s.entry e).gen ∈ s.queue := by
    constructor
    · rintro ⟨i, ⟨h1, h2, h3⟩, h4⟩
      obtain ⟨c, g, rfl⟩ := Item.eq_handback.mp h2
      cases h4
      exact h3 ▸ h1
    · exact fun h => ⟨_, ⟨h, rfl, rfl⟩, rfl⟩
  simp only [State.discardedHandbacks, State.lostHandbacks, State.pendingHandbacks, List.mem_append, List.mem_map, List.mem_filter,
    Option.mem_toList, Bool.and_eq_true, beq_iff_eq, List.mem_finRange, true_and, sent, queued]
  exact or_comm.trans (or_congr Iff.rfl or_comm)

/-- What is left of a handback set when the entries `es` have left it. -/
theorem eq_diff_of_sublist {left set es : List (Fin 96)} (nodup : set.Nodup) (sub : left.Sublist set)
    (mem : ∀ e, e ∈ left ↔ e ∈ set ∧ e ∉ es) : left = set.diff es := by
  rw [nodup.sdiff_eq_filter]
  have keeps : left.filter (· ∉ es) = left := List.filter_eq_self.mpr fun e he => decide_eq_true ((mem e).mp he).2
  have sub' : left.Sublist (set.filter (· ∉ es)) := keeps ▸ sub.filter _
  refine sub'.eq_of_length_le ((nodup.filter _).subperm fun e he => ?_).length_le
  obtain ⟨h1, h2⟩ := List.mem_filter.mp he
  exact (mem e).mpr ⟨h1, of_decide_eq_true h2⟩

/-- Settles O34: the discards, and what the release in progress makes of them. -/
theorem linkLossOutcome : Obligations.LinkLossOutcome := by
  intro s h
  refine ⟨⟨_, event_running linkFall s h.1⟩, fun down => ?_, fun up => ?_⟩
  · have stays : linkFall s = s := if_neg (by simp [down])
    exact (event_settled linkFall s h.1 (by rw [stays]; exact h.2)).trans (by rw [stays])
  intro u gone
  have discards : s.linkDiscards.raiseDevice .linkDown = u := by
    unfold State.linkDiscards
    rw [countDiscards_eq]
    rfl
  have outcome : ∀ t : State, t.link = false →
      (s.discardedHandbacks.foldl (State.leaveSet true) s.linkDiscards).endReleaseIfDone = t →
      exec .linkLoss s = .next (t.raiseDevice .linkDown) := fun t down ht => by
    have fall := (linkFall_up up).trans (by rw [ht])
    refine (event_settled linkFall s h.1 ?_).trans (by rw [fall])
    rw [fall]
    exact canTake_link_down down
  refine ⟨fun idle => ?_, fun r left hr law records mem sub => ?_⟩
  · rw [← discards]
    exact outcome _ rfl (handbacksLeft_idle (s := s.linkDiscards) idle true _)
  have law' : ReleaseLaw s.linkDiscards := law
  have remains : left = r.set.diff s.discardedHandbacks :=
    eq_diff_of_sublist (records.releaseSet (running_of_executing hr)).1 sub fun e => by rw [mem, mem_discardedHandbacks]
  have ends := law'.handbacksLeft hr (foldl_leave_discard s.discardedHandbacks r)
  rw [← remains] at ends
  dsimp only at ends
  obtain ⟨-, nonempty⟩ := law.2.1 r hr
  refine ⟨fun all => ?_, fun fewer more => ?_, fun empty => ?_⟩
  · have same : s.linkDiscards.releasing { slot := r.slot, set := left, mark := r.mark || decide (left ≠ r.set) } = s.linkDiscards := by
      rw [all]
      simpa using law'.releasing_self hr
    rw [if_neg (all ▸ nonempty), same] at ends
    rw [← discards]
    exact outcome _ rfl ends
  · rw [if_neg more] at ends
    rw [← discards]
    refine (outcome _ rfl ends).trans ?_
    simp only [fewer, ne_eq, not_false_eq_true, decide_true, Bool.or_true]
    rfl
  · subst empty
    rw [if_pos rfl, if_pos (by simp [Ne.symm nonempty])] at ends
    have records' : RecordsLaw u := discards ▸
      ((linkDiscards_acts s).trans (raiseDevice_acts _ _)).keep (fun _ _ h a => a.recordsLaw h) records
    obtain ⟨vacated, kept⟩ := becomeVacant_vacated records' r.slot
    rw [← discards] at vacated kept ⊢
    exact ⟨_, outcome _ rfl ends, vacated, kept, rfl⟩

/-! ### A completed HANDBACK (R52, R53, R111) -/

/-- A completion ends the frame in transmission, whatever the slot controller makes of it (R111). -/
def State.frameEnded (s : State) (x : Sending) : State :=
  { s with tx := none, lastEnded := some { frame := x.frame, checkGood := true } }

theorem completeTransmission_handback {s : State} {x : Sending} (hx : s.tx = some x) (kind : x.kind = .duty .handback) :
    completeTransmission s = ((s.count DeviceCounters.countDuty).handbackCompleted x.entry x.gen).frameEnded x := by
  simp only [completeTransmission, hx, State.countCompletion, State.reportCompletion, kind]
  rfl

/-- A HANDBACK of a former binding, or of no release in progress, is only counted (R52). -/
theorem handbackCompleted_other {s : State} {e : Fin 96} {gen : Byte} (law : ReleaseLaw s)
    (other : ∀ r, s.mailbox.state = .executing r → (s.entry e).gen = gen → e ∉ r.set) : s.handbackCompleted e gen = s := by
  unfold State.handbackCompleted
  split
  · next hg =>
    cases hm : s.mailbox.state with
    | executing r =>
      have stays : Release.leave false r e = r := if_neg (other r hm hg)
      refine (law.handbacksLeft (es := [e]) hm stays).trans ?_
      rw [if_neg (law.2.1 r hm).2, law.releasing_self hm]
    | idle => exact handbacksLeft_idle (by simp [hm]) false [e]
    | complete => exact handbacksLeft_idle (by simp [hm]) false [e]
  · rfl

/-- A HANDBACK of the release in progress takes its entry out of the release handback set (R52, R53). -/
theorem handbackCompleted_of_mem {s : State} {e : Fin 96} {r : Release} (law : ReleaseLaw s) (hr : s.mailbox.state = .executing r)
    (he : e ∈ r.set) : s.handbackCompleted e (s.entry e).gen =
      if r.set.erase e = [] then s.released r.slot (if r.mark then .partialEnd else .ok)
      else s.releasing { r with set := r.set.erase e } := by
  have left : Release.leave false r e = { r with set := r.set.erase e } := by
    rw [Release.leave, if_pos he, Bool.or_false]
  have ends := law.handbacksLeft (es := [e]) hr left
  unfold State.handbackCompleted
  rw [if_pos rfl]
  exact ends

/-- Settles O48: one entry leaves the release handback set, if it is of the release in progress. -/
theorem handbackCompletes : Obligations.HandbackCompletes := by
  intro s x hr hx kind u
  have complete := completeTransmission_handback hx kind
  refine ⟨_, event_running completeTransmission s hr, fun other law => ?_, fun r executing gen mem law records => ?_⟩
  · rw [complete, handbackCompleted_other (s := s.count _) law other]
    rfl
  have completed := handbackCompleted_of_mem (s := s.count DeviceCounters.countDuty) law executing mem
  obtain ⟨count, -⟩ := law.2.1 r executing
  have length := List.length_erase_of_mem mem
  rw [complete, ← gen, show (s.entry x.entry).gen = ((s.count DeviceCounters.countDuty).entry x.entry).gen from rfl, completed]
  refine ⟨fun more => ?_, fun last => ?_⟩
  · have left : r.set.erase x.entry ≠ [] := fun q => by
      rw [q, List.length_nil] at length
      omega
    rw [if_neg left, count, ← length]
    rfl
  · have empty : r.set.erase x.entry = [] := List.length_eq_zero_iff.mp (by omega)
    have records' : RecordsLaw u := records
    obtain ⟨vacated, kept⟩ := becomeVacant_vacated records' r.slot
    rw [if_pos empty]
    exact ⟨_, rfl, vacated, kept, rfl⟩

end Sys2Proof.Machine

namespace Sys2Proof.Machine

/-! ### A resolution frame: the claim step, the answer step and the take (R61, R62, R67, R89 to R91) -/

/-- A record after duties became items, and after more became items. -/
theorem MayOwe.trans {x y z : Entry} (h : MayOwe x y) (k : MayOwe y z) : MayOwe x z := by
  rcases k with rfl | rfl
  · exact h
  · rcases h with rfl | rfl
    · exact .inr rfl
    · exact .inr (by simp only [Entry.modBinding, Option.map_map, Function.comp_def])

theorem MayOwe.hasBinding {x : Entry} {t : State} {e : Fin 96} {b : Binding} (h : MayOwe x (t.entry e)) (bound : x.binding = some b) :
    HasBinding t e b := by
  unfold HasBinding
  rw [State.binding_eq]
  rcases h with h | h
  · exact .inl (by rw [h, bound])
  · exact .inr (by rw [h, Entry.binding_modBinding, bound]; rfl)

/-- What the answer step can do: nothing, or one answer more in the queue, or one dropped (R90, R91, R99). -/
theorem answerStep_cases (s : State) (source : LinkAddr) (r : ResFrame) (evidence : Option (Fin 96)) :
    s.answerStep source r evidence = s
      ∨ (∃ item, s.answerStep source r evidence = { s with queue := s.queue ++ [item] })
      ∨ s.answerStep source r evidence = (s.count DeviceCounters.countDropped).raiseDevice .replyDropped := by
  unfold State.answerStep State.offerAnswer
  split
  · exact .inl rfl
  · split
    · next item _ =>
      split
      · exact .inr (.inl ⟨item, rfl⟩)
      · exact .inr (.inr rfl)
    · exact .inl rfl

theorem answerStep_link (s : State) (source : LinkAddr) (r : ResFrame) (evidence : Option (Fin 96)) :
    (s.answerStep source r evidence).link = s.link := by
  rcases answerStep_cases s source r evidence with h | ⟨item, h⟩ | h
  all_goals exact (congrArg State.link h :)

theorem answerStep_tx (s : State) (source : LinkAddr) (r : ResFrame) (evidence : Option (Fin 96)) :
    (s.answerStep source r evidence).tx = s.tx := by
  rcases answerStep_cases s source r evidence with h | ⟨item, h⟩ | h
  all_goals exact (congrArg State.tx h :)

/-- The items that wait keep their places. -/
theorem answerStep_queue (s : State) (source : LinkAddr) (r : ResFrame) (evidence : Option (Fin 96)) :
    s.queue <+: (s.answerStep source r evidence).queue := by
  rcases answerStep_cases s source r evidence with h | ⟨item, h⟩ | h <;> rw [h]
  · exact ⟨[item], rfl⟩
  · exact ⟨[], List.append_nil _⟩

/-- The answer step and the take leave the slots' records, and of the entries all but duties that became items (R90, R101). -/
theorem answerTaken_records (s : State) (source : LinkAddr) (r : ResFrame) (evidence : Option (Fin 96)) :
    (s.answerStep source r evidence).serve.slots = s.slots
      ∧ ∀ c, MayOwe (s.entry c) ((s.answerStep source r evidence).serve.entry c) := by
  have offered := answerStep_offered s source r evidence
  have moved := serve_moved (s.answerStep source r evidence)
  refine ⟨moved.slots.trans offered.slots, fun c => ?_⟩
  have entry : (s.answerStep source r evidence).entry c = s.entry c := by
    rw [State.entry_eq, offered.entries, ← State.entry_eq]
  exact entry ▸ moved.entry c

/-- A taken resolution frame: the claim step, the answer step against the records it leaves, and the transmitter's take (R89, R103). -/
theorem exec_resolution {bytes : List Byte} {fcsGood : Bool} {s : State} {f : List Byte} {r : ResFrame} (h : s.resetAsserted = false)
    (accepted : s.accept bytes fcsGood = .taken f) (classified : s.classify f = .resolution r) {t : State} {evidence : Option (Fin 96)}
    (claim : (s.count DeviceCounters.countTaken).claimStep (sourceLink f) r = (t, evidence)) :
    exec (.frameTaken bytes fcsGood) s = .next (t.answerStep (sourceLink f) r evidence).serve := by
  have classified : (s.count DeviceCounters.countTaken).classify f = .resolution r := classified
  refine (event_running _ s h).trans ?_
  simp only [takeFrame, accepted, State.dispatchFrame, classified, claim]

/-! ### What a frame is evidence against (R61, R62, R66) -/

/-- A probe for a held address of a slot that defends it is no evidence (R66). -/
theorem applyEvidence_probe {s : State} (e : Fin 96) {b : Binding} (held : b.claim = .held ∨ b.claim = .defended)
    (defends : (s.slot b.owner).state.defends = true) : s.applyEvidence e b .probe = (s, false) := by
  unfold State.applyEvidence
  rcases held with hc | hc <;> rw [hc] <;> exact if_pos defends

/-- Evidence against an entry that has no claim, or whose slot does not defend it, is ignored (R62). -/
theorem applyEvidence_ignored {s : State} (e : Fin 96) {b : Binding} (form : ClaimForm)
    (ignored : b.claim = .quiet ∨ b.claim = .lost
      ∨ ((b.claim = .held ∨ b.claim = .defended) ∧ (s.slot b.owner).state.defends = false)) :
    s.applyEvidence e b form = (s, true) := by
  unfold State.applyEvidence
  rcases ignored with hc | hc | ⟨hc | hc, idle⟩
  · rw [hc]
  · rw [hc]
  · rw [hc]
    exact if_neg (by rw [idle]; exact Bool.false_ne_true)
  · rw [hc]
    exact if_neg (by rw [idle]; exact Bool.false_ne_true)

/-- A claim against a TENTATIVE entry, and a claim of use against any, is evidence (R62 to R65). -/
theorem applyEvidence_evidence {s : State} (e : Fin 96) {b : Binding} {form : ClaimForm}
    (h : b.claim = .tentative ∨ form = .use) : (s.applyEvidence e b form).2 = true := by
  unfold State.applyEvidence
  rcases h with hc | rfl
  · rw [hc]
  · cases b.claim with
    | quiet => rfl
    | lost => rfl
    | tentative => rfl
    | held => dsimp only; split <;> rfl
    | defended => dsimp only; split <;> rfl

/-- A frame from the entry's own client, or from the station, is no evidence (R61). -/
theorem claimStep_own {s : State} {source : LinkAddr} {r : ResFrame} {a : Addr} {form : ClaimForm} {e : Fin 96} {b : Binding}
    (claimed : r.claimed = some (a, form)) (found : s.lookup a = some e) (bound : s.binding e = some b)
    (own : (s.slot b.owner).client = some source ∨ (s.settings.station ≠ 0 ∧ source = s.settings.station)) :
    s.claimStep source r = (s, none) := by
  have notForeign : s.foreignSource b source = false := by
    rcases own with client | ⟨station, rfl⟩
    · simp [State.foreignSource, client]
    · simp only [State.foreignSource, bne_iff_ne.mpr station, beq_self_eq_true, Bool.and_self, Bool.not_true, Bool.and_false]
  simp only [State.claimStep, claimed, found, bound, notForeign, Bool.false_eq_true, if_false]

/-- The frame `r` from `source` is evidence against no entry: every entry that it claims is its sender's own, or the station sent it, or it is
a probe for a held address of a slot that defends it (R61, R66). -/
def State.Harmless (s : State) (source : LinkAddr) (r : ResFrame) : Prop :=
  ∀ a form e b, r.claimed = some (a, form) → s.lookup a = some e → s.binding e = some b →
    (s.slot b.owner).client = some source ∨ (s.settings.station ≠ 0 ∧ source = s.settings.station)
      ∨ (form = .probe ∧ (b.claim = .held ∨ b.claim = .defended) ∧ (s.slot b.owner).state.defends = true)

theorem claimStep_harmless {s : State} {source : LinkAddr} {r : ResFrame} (h : s.Harmless source r) :
    s.claimStep source r = (s, none) := by
  cases claimed : r.claimed with
  | none => simp only [State.claimStep, claimed]
  | some claim =>
    obtain ⟨a, form⟩ := claim
    cases found : s.lookup a with
    | none => simp only [State.claimStep, claimed, found]
    | some e =>
      cases bound : s.binding e with
      | none => simp only [State.claimStep, claimed, found, bound]
      | some b =>
        by_cases own : (s.slot b.owner).client = some source ∨ (s.settings.station ≠ 0 ∧ source = s.settings.station)
        · exact claimStep_own claimed found bound own
        · obtain ⟨client, station⟩ := not_or.mp own
          obtain ⟨rfl, held, defends⟩ := ((h a form e b claimed found bound).resolve_left client).resolve_left station
          rw [claimStep_eq claimed found bound client station, applyEvidence_probe e held defends]
          rfl

/-! ### First claims (R64, R66, R100) -/

/-- A first claim as one update of the entry and of its slot's record, before the DEFEND duty is offered (R64, R100). -/
theorem firstClaim_eq (s : State) (e : Fin 96) (n : Fin 16) : s.firstClaim e n =
    ((s.modBinding e (Binding.defend (s.now + 1000 * s.settings.defenceWindow))).setSlot n
      ((s.slot n).claimed .defended)).offerDuty e := by
  have offer := offerDuty_modSlot (s.modBinding e (Binding.defend (s.now + 1000 * s.settings.defenceWindow))) e n
    (Slot.claimed .defended)
  unfold State.firstClaim State.countSlot State.raiseSlot
  rw [modSlot_modSlot]
  exact offer.symm

/-- With the link down an offered duty waits, whatever is answered after it (R100). -/
theorem duty_offeredDown {s : State} (down : s.link = false) (e : Fin 96) (source : LinkAddr) (r : ResFrame) (evidence : Option (Fin 96)) :
    ((s.offerDuty e).answerStep source r evidence).serve.duty e = s.duty e := by
  have offered := answerStep_offered s source r evidence
  rw [offerDuty_waits s e (.inr (.inl down)), serve_idle _ (canTake_link_down ((answerStep_link ..).trans down))]
  refine duty_congr ?_
  rw [State.entry_eq, offered.entries, ← State.entry_eq]

/-- While the transmitter is sending, an offered duty takes the next place of the queue, before what is answered after it (R98, R100). -/
theorem queue_offeredSending {s : State} {e : Fin 96} {d : Duty} (duty : s.duty e = some d) (up : s.link = true) (sends : s.tx ≠ none)
    (room : s.queue.length < 16) (source : LinkAddr) (r : ResFrame) (evidence : Option (Fin 96)) :
    ((s.offerDuty e).answerStep source r evidence).serve.queue[s.queue.length]? = some (.duty d e (s.entry e).gen) := by
  have taken := offerDuty_taken s e d duty up room
  have stays : ((s.offerDuty e).answerStep source r evidence).tx ≠ none := by
    rw [answerStep_tx, taken]
    exact sends
  obtain ⟨more, answers⟩ := answerStep_queue (s.offerDuty e) source r evidence
  rw [serve_idle _ (canTake_sending stays), ← answers, taken, List.append_assoc, List.getElem?_append_right le_rfl, Nat.sub_self]
  rfl

/-- Settles O40: the DEFEND duty is offered after the update of the entry and of its slot, and what follows keeps its place. -/
theorem firstClaim : Obligations.FirstClaim := by
  intro bytes fcsGood s r e b h held defends
  refine ⟨fun claims => ?_, fun claims => ?_⟩
  · have evidence : (s.count DeviceCounters.countTaken).applyEvidence e b .use
        = ((s.count DeviceCounters.countTaken).firstClaim e b.owner, true) := by
      have defends : ((s.count DeviceCounters.countTaken).slot b.owner).state.defends = true := defends
      simp only [State.applyEvidence, held, defends, if_true]
    rw [firstClaim_eq] at evidence
    obtain ⟨f, accepted, exec⟩ := exec_claims h.1 claims evidence
    obtain ⟨-, -, -, -, -, -, bound, -, -⟩ := claims
    generalize hu : ((s.count DeviceCounters.countTaken).modBinding e _).setSlot b.owner _ = u at exec
    have entry : ∀ c, u.entry c = if e = c then
        (s.entry c).modBinding (Binding.defend (s.now + 1000 * s.settings.defenceWindow)) else s.entry c := fun c => by
      rw [← hu]
      exact entry_modBinding (s.count _) e c _
    have defended : (u.entry e).binding = some (b.defend (s.now + 1000 * s.settings.defenceWindow)) := by
      rw [entry, if_pos rfl, Entry.binding_modBinding, ← State.binding_eq, bound]
      rfl
    have duty : u.duty e = some .defend := duty_of_binding defended
    have same : u.link = s.link ∧ u.tx = s.tx ∧ u.queue = s.queue := by
      rw [← hu]
      exact ⟨rfl, rfl, rfl⟩
    obtain ⟨link, tx, queue⟩ := same
    have moved := offerDuty_moved u e
    obtain ⟨slots, owes⟩ := answerTaken_records (u.offerDuty e) (sourceLink f) r (some e)
    have owes : ∀ c, MayOwe (u.entry c) (State.entry _ c) := fun c => MayOwe.trans (moved.entry c) (owes c)
    refine ⟨_, exec, (owes e).hasBinding defended, fun down => ?_, fun up sends room => ?_, fun c other => ?_, fun n => ?_,
      fun f' accepted' => ?_⟩
    · exact (duty_offeredDown (link.trans down) e ..).trans duty
    · have place := queue_offeredSending duty (link.trans up) (tx ▸ sends) (queue ▸ room) (sourceLink f) r (some e)
      rwa [queue, entry, if_pos rfl] at place
    · have owes := owes c
      rwa [entry, if_neg (Ne.symm other)] at owes
    · rw [State.slot_eq, slots, moved.slots, ← State.slot_eq, ← hu, slot_setSlot]
      simp only [eq_comm (a := n)]
      split
      · next q => rw [← q]; rfl
      · rfl
    · cases accepted.symm.trans accepted'
      refine ⟨u.offerDuty e, _, ?_, answerStep_answered _ f r (some e), rfl⟩
      rw [← hu]
      exact offerDuty_offered _ e
  · obtain ⟨f, a, accepted, classified, claimed, found, bound, client, station⟩ := claims
    have step : (s.count DeviceCounters.countTaken).claimStep (sourceLink f) r = (s.count DeviceCounters.countTaken, none) := by
      rw [claimStep_eq (s := s.count _) claimed found bound client station,
        applyEvidence_probe (s := s.count _) e (.inl held) defends]
      rfl
    exact ⟨_, exec_resolution h.1 accepted classified step, answerTaken_records (s.count DeviceCounters.countTaken) _ r none⟩

/-! ### Requests and their answers (R90, R91, R99, R103) -/

/-- The item made for a request is an answer for the entry at its generation (R91, R98). -/
theorem ResFrame.answer_fields {r : ResFrame} {peer : LinkAddr} {e : Fin 96} {gen : Byte} {item : Item}
    (h : r.answer peer e gen = some item) :
    item.entry = e ∧ item.gen = gen ∧ (item.kind = .answerV4 ∨ item.kind = .answerV6) := by
  cases r with
  | v4 request sender target =>
    cases request with
    | true => cases h; exact ⟨rfl, rfl, .inl rfl⟩
    | false => cases h
  | v6 solicit source target =>
    cases solicit with
    | true => cases h; exact ⟨rfl, rfl, .inr rfl⟩
    | false => cases h

/-- An answer is valid while its entry is at the item's generation and held by a slot that answers for it (R104). -/
theorem valid_answer {s : State} {item : Item} {b : Binding} (bound : s.binding item.entry = some b)
    (gen : item.gen = (s.entry item.entry).gen) (kind : item.kind = .answerV4 ∨ item.kind = .answerV6)
    (held : b.claim = .held ∨ b.claim = .defended)
    (answers : (s.slot b.owner).state = .proxying ∨ (s.slot b.owner).state = .waking) : s.valid item = true := by
  have holds : b.claim.isHeld = true := by rcases held with q | q <;> rw [q] <;> rfl
  have stands : (s.slot b.owner).state.answers = true := by rcases answers with q | q <;> rw [q] <;> rfl
  simp only [State.valid, gen, bound, beq_self_eq_true, Bool.true_and]
  rcases kind with q | q <;> rw [q, kindValid, holds, stands] <;> rfl

/-- Where no duty waits, a freed place stays free (R101). -/
theorem givePlace_none {s : State} (h : ∀ c, s.duty c = none) : s.givePlace = s := by
  have none : s.lowestDuty = none := List.find?_eq_none.mpr fun c _ => by simp [h c]
  simp only [State.givePlace, none]

theorem waiting_none {s : State} (h : ∀ c, s.duty c = none) : s.waiting = 0 :=
  List.length_eq_zero_iff.mpr (List.filter_eq_nil_iff.mpr fun c _ => by simp [h c])

/-- An idle transmitter sends the one valid item at once (R103). -/
theorem serve_single {s : State} {item : Item} (idle : s.tx = none) (link : s.link = true) (queue : s.queue = [item])
    (duties : ∀ c, s.duty c = none) (valid : s.valid item = true) :
    s.serve = { s with queue := [], tx := some (s.sendingOf item) } := by
  have take : s.canTake = true := by simp [State.canTake, idle, link, queue]
  have head : s.takeHead = { s with queue := [], tx := some (s.sendingOf item) } := by
    have place : State.givePlace { s with queue := [] } = { s with queue := [] } := givePlace_none duties
    have valid : State.valid { s with queue := [] } item = true := valid
    simp only [State.takeHead, queue, place, valid, if_true]
    rfl
  rw [State.serve, waiting_none duties, queue]
  exact (if_pos take).trans head

/-- Settles O42: the three acts of a resolution frame in their order; a frame that is evidence against no entry leaves the claims alone. -/
theorem requestAnswered : Obligations.RequestAnswered := by
  refine ⟨fun x y => ⟨rfl, rfl, rfl, rfl, fun _ _ _ => rfl⟩, fun x y => ⟨rfl, rfl, rfl, rfl, fun peer e gen => ?_⟩, ?_⟩
  · by_cases hx : x = 0
    · subst hx
      rfl
    · simp only [ResFrame.answer, if_neg hx, bne_iff_ne.mpr hx]
  intro bytes fcsGood s f r h accepted classified u claim harmless
  have unclaimed : harmless → claim = (u, none) := claimStep_harmless (s := u)
  refine ⟨⟨_, answerStep_answered .., exec_resolution h.1 accepted classified rfl⟩, unclaimed, fun form e b claims => ?_,
    fun a asked safe => ?_⟩
  · obtain ⟨f', a, accepted', classified', claimed, found, bound, client, station⟩ := claims
    cases accepted.symm.trans accepted'
    cases classified.symm.trans classified'
    have step : claim = _ := claimStep_eq (s := u) claimed found bound client station
    refine ⟨fun ignored => ?_, fun acted => ?_⟩
    · rw [step, applyEvidence_ignored (s := u) e form]
      · rfl
      · exact ignored.imp_right (Or.imp_right (And.imp_right fun dark => congrArg SlotState.defends dark))
    · rw [step, applyEvidence_evidence e (acted.imp_right And.left)]
      rfl
  · intro served
    have exec := exec_resolution h.1 accepted classified (unclaimed safe)
    obtain ⟨nothing, answer⟩ := answerStep_answered u f r none
    refine ⟨fun unserved => ?_, fun e item serves found made => ?_⟩
    · rw [exec, nothing, serve_idle u h.2]
      rintro a' e ⟨asked', found, -, b, bound, held, answers⟩
      cases asked.symm.trans asked'
      exact unserved ⟨e, b, found, bound, held, answers⟩
    obtain ⟨e', b, found', bound, held, answers⟩ := serves
    cases found.symm.trans found'
    obtain ⟨item', made', answered⟩ := answer a e ⟨asked, found, nofun, b, bound, held, answers⟩
    cases made.symm.trans made'
    rw [exec, answered]
    refine ⟨fun up room sends => ?_, fun up idle duties => ?_, fun full => ?_⟩
    · rw [if_pos ⟨up, room⟩]
      exact congrArg Host.Outcome.next (serve_idle _ (canTake_sending sends))
    · have rest := h.2
      have empty : s.queue = [] := by simpa [State.canTake, idle, up] using rest
      obtain ⟨rfl, gen, kind⟩ := ResFrame.answer_fields made
      have valid : s.valid item = true := valid_answer bound gen kind held answers
      have room : u.link = true ∧ u.queue.length < 12 := ⟨up, by simp [u, empty]⟩
      have sent : State.serve { u with queue := u.queue ++ [item] } = _ :=
        serve_single (s := { u with queue := u.queue ++ [item] }) idle up (congrArg (· ++ [item]) empty) duties valid
      rw [if_pos room, sent, ← gen, ← empty]
      rfl
    · rw [if_neg full]
      exact congrArg Host.Outcome.next (serve_idle _ h.2)

end Sys2Proof.Machine

namespace Sys2Proof.Machine

/-! ### Completed transmissions (R58, R111, R147, R148) -/

/-- A completion is counted and reported, and then the frame has ended (R111). -/
theorem completeTransmission_sending {s : State} {x : Sending} (hx : s.tx = some x) :
    completeTransmission s = ((s.countCompletion x).reportCompletion x).frameEnded x := by
  simp only [completeTransmission, hx]
  rfl

theorem countCompletion_duty (s : State) {x : Sending} {d : Duty} (kind : x.kind = .duty d) :
    s.countCompletion x = s.count DeviceCounters.countDuty := by
  simp only [State.countCompletion, kind]

/-- An answer counts for the owner of its entry while the entry carries the item's generation (R111). -/
theorem countCompletion_answer {s : State} {x : Sending} {b : Binding} (kind : x.kind = .answerV4 ∨ x.kind = .answerV6)
    (bound : s.binding x.entry = some b) (gen : (s.entry x.entry).gen = x.gen) :
    s.countCompletion x = (s.count DeviceCounters.countAnswer).countSlot b.owner SlotCounters.countAnswer := by
  have bound : (s.count DeviceCounters.countAnswer).binding x.entry = some b := bound
  have gen : ((s.count DeviceCounters.countAnswer).entry x.entry).gen = x.gen := gen
  rcases kind with kind | kind <;> simp only [State.countCompletion, kind, bound, gen, if_true]

/-- An answer for a former binding counts for no slot (R111). -/
theorem countCompletion_formerAnswer {s : State} {x : Sending} (kind : x.kind = .answerV4 ∨ x.kind = .answerV6)
    (former : ∀ b, s.binding x.entry = some b → (s.entry x.entry).gen ≠ x.gen) :
    s.countCompletion x = s.count DeviceCounters.countAnswer := by
  rcases kind with kind | kind
  all_goals
    simp only [State.countCompletion, kind]
    split
    · next b bound => exact if_neg (former b bound)
    · rfl

/-- Only PROBE and HANDBACK completions are reported on (R111, step 2). -/
theorem reportCompletion_none (s : State) {x : Sending} (probe : x.kind ≠ .duty .probe) (handback : x.kind ≠ .duty .handback) :
    s.reportCompletion x = s := by
  unfold State.reportCompletion
  split
  · next kind => exact absurd kind probe
  · next kind => exact absurd kind handback
  all_goals rfl

theorem reportCompletion_probe (s : State) {x : Sending} (kind : x.kind = .duty .probe) :
    s.reportCompletion x = s.probeCompleted x.entry x.gen := by
  simp only [State.reportCompletion, kind]

/-- A probe counts when the generation is the item's, the entry TENTATIVE and its timer stopped (R58). -/
theorem probeCompleted_counts {s : State} {e : Fin 96} {gen : Byte} {b : Binding} (bound : s.binding e = some b)
    (present : (s.entry e).gen = gen) (tentative : b.claim = .tentative) (stopped : b.probeDue = none) :
    s.probeCompleted e gen = s.modBinding e (Binding.probeSent (s.now + s.settings.probeInterval)) := by
  simp only [State.probeCompleted, bound]
  exact if_pos ⟨present, tentative, stopped⟩

/-- Every other probe is only counted as transmitted (R58). -/
theorem probeCompleted_other {s : State} {e : Fin 96} {gen : Byte}
    (other : ∀ b, s.binding e = some b → (s.entry e).gen = gen → b.claim = .tentative → b.probeDue ≠ none) :
    s.probeCompleted e gen = s := by
  unfold State.probeCompleted
  split
  · rfl
  · next b bound =>
    refine if_neg ?_
    rintro ⟨present, tentative, stopped⟩
    exact other b bound present tentative stopped

/-- Settles O47: the completion by the kind of the item, then the take. -/
theorem transmissionCompletes : Obligations.TransmissionCompletes := by
  intro s running
  refine ⟨fun idle rest => ?_, ?_⟩
  · have nothing : completeTransmission s = s := by simp only [completeTransmission, idle]
    exact (event_running _ s running).trans (by rw [nothing, serve_idle s rest])
  intro x hx noHandback c ended
  refine ⟨_, event_running _ s running, ?_⟩
  rw [completeTransmission_sending hx]
  refine ⟨fun d kind noProbe => ?_, fun kind => ?_, fun kind => ?_⟩
  · rw [countCompletion_duty s kind, reportCompletion_none _ (by simpa [kind] using noProbe) (by simpa [kind] using noHandback d kind)]
    rfl
  · rw [countCompletion_duty s kind, reportCompletion_probe _ kind]
    refine ⟨fun b bound present tentative stopped => ?_, fun other => ?_⟩
    · rw [probeCompleted_counts (s := s.count _) bound present tentative stopped]
      rfl
    · rw [probeCompleted_other (s := s.count _) other]
      rfl
  · have unreported : ∀ t : State, t.reportCompletion x = t := fun t => by
      rcases kind with kind | kind <;> exact reportCompletion_none t (by simp [kind]) (by simp [kind])
    rw [unreported]
    refine ⟨fun b bound present => ?_, fun former => ?_⟩
    · rw [countCompletion_answer kind bound present]
      rfl
    · rw [countCompletion_formerAnswer kind former]
      rfl

end Sys2Proof.Machine

namespace Sys2Proof.Machine

/-! ### Fields byte by byte (R203) -/

theorem slice_succ {f : List Byte} {off n : Nat} (h : off + n < f.length) :
    slice f off (n + 1) = slice f off n ++ [byteAt f (off + n)] := by
  have last : (f.drop off)[n]? = some (byteAt f (off + n)) := by
    rw [List.getElem?_drop, byteAt, List.getD_eq_getElem _ _ h, List.getElem?_eq_getElem h]
  rw [slice, slice, List.take_add_one, last]
  rfl

theorem length_slice {f : List Byte} {off n : Nat} (h : off + n ≤ f.length) : (slice f off n).length = n := by
  rw [slice, List.length_take, List.length_drop]
  omega

theorem take_slice {f : List Byte} {off n k : Nat} (h : k ≤ n) : (slice f off n).take k = slice f off k := by
  rw [slice, List.take_take, Nat.min_eq_left h, slice]

theorem drop_slice (f : List Byte) (off n k : Nat) : (slice f off n).drop k = slice f (off + k) (n - k) := by
  rw [slice, List.drop_take, List.drop_drop, slice]

/-- A field with one byte more: the byte is its least significant. -/
theorem field_succ {f : List Byte} {off n : Nat} (h : off + n < f.length) :
    field f off (n + 1) = field f off n * 256 + (byteAt f (off + n)).toNat := by
  rw [field, slice_succ h, ofBytesBE_append]
  simp [field, ofBytesBE]

theorem field_two {f : List Byte} {off : Nat} (h : off + 1 < f.length) :
    field f off 2 = (byteAt f off).toNat * 256 + (byteAt f (off + 1)).toNat := by
  rw [field_succ h, field_succ (n := 0) (by omega), field_none, Nat.zero_mul, Nat.zero_add, Nat.add_zero]

theorem ofBytesBE_lt (l : List Byte) : ofBytesBE l < 256 ^ l.length := by
  induction l using List.reverseRecOn with
  | nil => exact Nat.one_pos
  | append_singleton l b ih =>
    have single : ofBytesBE [b] = b.toNat := by simp [ofBytesBE]
    have := b.isLt
    rw [ofBytesBE_append, single, List.length_append, List.length_singleton, pow_one, Nat.pow_succ]
    omega

theorem field_lt (f : List Byte) (off n : Nat) : field f off n < 256 ^ n :=
  (ofBytesBE_lt _).trans_le (Nat.pow_le_pow_right (by decide) (List.length_take_le _ _))

/-! ### The segment tag test (R80, R206) -/

/-- The two bytes after the link addresses mark a segment tag (R206). -/
def Tagged (f : List Byte) : Prop := byteAt f 12 = 0x81#8 ∧ byteAt f 13 = 0x00#8

/-- The VLAN id of a tagged frame: the low 12 bits of the tag's last two bytes (R206). -/
def vlanId (f : List Byte) : BitVec 12 := (byteAt f 14).extractLsb' 0 4 ++ byteAt f 15

theorem frameType_eq_tagMark_iff {f : List Byte} (h : 14 ≤ f.length) : frameType f = tagMark ↔ Tagged f := by
  have mark : field f 12 2 = (byteAt f 12).toNat * 256 + (byteAt f 13).toNat := field_two (by omega)
  rw [frameType, mark, tagMark, Tagged, ← BitVec.toNat_inj, ← BitVec.toNat_inj]
  have := (byteAt f 12).isLt
  have := (byteAt f 13).isLt
  simp only [BitVec.toNat_ofNat]
  omega

theorem toNat_vlanId {f : List Byte} (h : 16 ≤ f.length) : (vlanId f).toNat = field f 14 2 % 4096 := by
  have tag : field f 14 2 = (byteAt f 14).toNat * 256 + (byteAt f 15).toNat := field_two (by omega)
  have := (byteAt f 15).isLt
  rw [vlanId, tag, BitVec.toNat_append, BitVec.extractLsb'_toNat, ← Nat.shiftLeft_add_eq_or_of_lt (by omega),
    Nat.shiftLeft_eq, Nat.shiftRight_zero]
  omega

/-- With the setting 0 an untagged frame passes as it is. -/
theorem tagTest_zero_iff {g f : List Byte} (h : 14 ≤ g.length) : tagTest 0 g = some f ↔ ¬ Tagged g ∧ f = g := by
  rw [tagTest, if_pos rfl, ← frameType_eq_tagMark_iff h]
  split
  · next tagged => simp [tagged]
  · next untagged => simp [untagged, eq_comm]

/-- With another setting a frame passes with exactly one tag of that VLAN id, less the tag. -/
theorem tagTest_segment_iff {segment : BitVec 12} {g f : List Byte} (h : 18 ≤ g.length) (on : segment ≠ 0) :
    tagTest segment g = some f ↔ Tagged g ∧ vlanId g = segment ∧ f = removeTag g ∧ ¬ Tagged f := by
  have rest : 14 ≤ (removeTag g).length := by simp only [removeTag, List.length_append, List.length_take, List.length_drop]; omega
  rw [tagTest, if_neg on, ← BitVec.toNat_inj, toNat_vlanId (by omega), ← frameType_eq_tagMark_iff (f := g) (by omega)]
  by_cases tagged : frameType g = tagMark
  · by_cases same : field g 14 2 % 4096 = segment.toNat
    · rw [if_neg (not_not.mpr tagged), if_neg (not_not.mpr same)]
      by_cases twice : frameType (removeTag g) = tagMark
      · have := (frameType_eq_tagMark_iff rest).mp twice
        rw [if_pos twice]
        simp only [reduceCtorEq, false_iff]
        rintro ⟨-, -, rfl, once⟩
        exact once this
      · have once := twice ∘ (frameType_eq_tagMark_iff rest).mpr
        rw [if_neg twice, Option.some_inj]
        exact ⟨fun q => ⟨tagged, same, q.symm, q ▸ once⟩, fun ⟨_, _, q, _⟩ => q.symm⟩
    · simp [tagged, same]
  · simp [tagged]

/-- Settles O37: the mark and the VLAN id are read from their bytes. -/
theorem segmentTagTest : Obligations.SegmentTagTest := fun _ _ _ long =>
  ⟨tagTest_zero_iff (by omega), tagTest_segment_iff long⟩

/-! ### Acceptance (R79 to R82) -/

/-- The destination is the link address of the solicited-node group of the V6 address of entry `e` (R81). -/
def State.ToGroupOf (s : State) (d : LinkAddr) (e : Fin 96) : Prop :=
  ∃ b a, s.binding e = some b ∧ b.addr = .v6 a ∧ d = 0x3333FF#24 ++ a.extractLsb' 0 24

/-- The destinations that the part takes: the five rows of R81. -/
def State.Wanted (s : State) (d : LinkAddr) : Prop :=
  d = 0xFFFFFFFFFFFF#48 ∨ d = 0x333300000001#48
    ∨ (s.settings.station ≠ 0 ∧ d = s.settings.station)
    ∨ (∃ n, (s.slot n).state ∈ [SlotState.probing, .proxying, .waking, .dark] ∧ (s.slot n).client = some d)
    ∨ ∃ e, s.ToGroupOf d e

theorem standsIn_iff {x : SlotState} : x.standsIn = true ↔ x ∈ [SlotState.probing, .proxying, .waking, .dark] := by
  cases x <;> decide

/-- The link address of a solicited-node group is 33:33:FF and the low 3 bytes of the address (R81). -/
theorem solicitedLink_eq (a : BitVec 128) : solicitedLink a = 0x3333FF#24 ++ a.extractLsb' 0 24 := by
  have := Nat.mod_lt a.toNat (show 0 < 2 ^ 24 by decide)
  refine BitVec.eq_of_toNat_eq ?_
  rw [solicitedLink, low3, BitVec.toNat_append, BitVec.extractLsb'_toNat, Nat.shiftRight_zero, ← Nat.shiftLeft_add_eq_or_of_lt this,
    Nat.shiftLeft_eq, BitVec.toNat_ofNat, BitVec.toNat_ofNat]
  omega

theorem destTaken_iff {s : State} {d : LinkAddr} : s.destTaken d = true ↔ s.Wanted d := by
  simp only [State.destTaken, Bool.or_eq_true, Bool.and_eq_true, beq_iff_eq, bne_iff_ne, anySlot_eq_true, standsIn_iff,
    List.any_eq_true, List.mem_finRange, true_and, broadcast, allNodesLink]
  refine (or_congr_right (exists_congr (q := s.ToGroupOf d) fun e => ?_)).trans ?_
  · rw [State.ToGroupOf]
    cases s.binding e with
    | none => simp
    | some b => cases key : b.addr <;> simp [key, solicitedLink_eq]
  · rw [State.Wanted]
    exact iff_of_eq (by ac_rfl)

theorem sourceTaken_iff {s : State} {c : LinkAddr} :
    s.sourceTaken c = true ↔ ¬ (s.settings.station ≠ 0 ∧ c = s.settings.station) := by
  rw [State.sourceTaken, Bool.not_eq_true', ← Bool.not_eq_true, Bool.and_eq_true, bne_iff_ne, beq_iff_eq]

/-- The check sequence is good and the length in range (R79). -/
def Sound (bytes : List Byte) (fcsGood : Bool) : Prop := fcsGood = true ∧ 64 ≤ bytes.length ∧ bytes.length ≤ 1522

theorem accept_unsound {bytes : List Byte} {fcsGood : Bool} (s : State) (h : ¬ Sound bytes fcsGood) :
    s.accept bytes fcsGood = .refused := by
  refine if_pos ?_
  cases fcsGood
  · exact .inl rfl
  · simp only [Sound, true_and] at h
    omega

theorem accept_untested {bytes : List Byte} {fcsGood : Bool} {s : State} (sound : Sound bytes fcsGood)
    (tag : tagTest s.settings.segment (bytes.take (bytes.length - 4)) = none) : s.accept bytes fcsGood = .refused := by
  obtain ⟨rfl, long, short⟩ := sound
  rw [State.accept, if_neg (by simp; omega), tag]

/-- A sound frame that passes the tag test is decided by its link addresses (R81, R82). -/
theorem accept_tested {bytes : List Byte} {fcsGood : Bool} {s : State} {f : List Byte} (sound : Sound bytes fcsGood)
    (tag : tagTest s.settings.segment (bytes.take (bytes.length - 4)) = some f) :
    s.accept bytes fcsGood = if s.destTaken (destLink f) && s.sourceTaken (sourceLink f) then .taken f else .ignored := by
  obtain ⟨rfl, long, short⟩ := sound
  rw [State.accept, if_neg (by simp; omega), tag]

/-- Settles O36: the four tests in their order. -/
theorem frameAcceptance : Obligations.FrameAcceptance := by
  intro bytes fcsGood s g sound wanted own
  by_cases h : sound
  · cases tag : tagTest s.settings.segment g with
    | none => simp [accept_untested h tag, h]
    | some f =>
      have pass : (s.destTaken (destLink f) && s.sourceTaken (sourceLink f)) = true ↔ wanted (destLink f) ∧ ¬ own (sourceLink f) := by
        rw [Bool.and_eq_true, destTaken_iff, sourceTaken_iff]
        rfl
      rw [accept_tested h tag]
      by_cases p : wanted (destLink f) ∧ ¬ own (sourceLink f)
      · rw [if_pos (pass.mpr p)]
        simp [h, p, eq_comm]
      · rw [if_neg (p ∘ pass.mp)]
        simpa [h] using p
  · simp [accept_unsound s h, h]

/-! ### The class of a frame (R83 to R88) -/

/-- The conditions of a V4 resolution frame (R84). -/
def V4Resolution (f : List Byte) : Prop :=
  field f 12 2 = 0x0806 ∧ field f 14 2 = 1 ∧ field f 16 2 = 0x0800 ∧ field f 18 1 = 6 ∧ field f 19 1 = 4
    ∧ (field f 20 2 = 1 ∨ field f 20 2 = 2) ∧ 42 ≤ f.length

/-- The structural conditions of a V6 neighbour message (R85). -/
def V6Neighbour (f : List Byte) : Prop :=
  field f 12 2 = 0x86DD ∧ field f 20 1 = 58 ∧ field f 21 1 = 255 ∧ (field f 54 1 = 135 ∨ field f 54 1 = 136)
    ∧ field f 55 1 = 0 ∧ 24 ≤ field f 18 2 ∧ 54 + field f 18 2 ≤ f.length ∧ field f 62 1 ≠ 0xFF
    ∧ (field f 54 1 = 135 → field f 38 16 = field f 62 16
        ∨ field f 38 16 = 0xFF0200000000000000000001FF000000 + field f 62 16 % 2 ^ 24)

theorem isV4Resolution_iff {f : List Byte} : isV4Resolution f = true ↔ V4Resolution f := by
  simp only [isV4Resolution, V4Resolution, frameType, typeV4Resolution, Bool.and_eq_true, Bool.or_eq_true, beq_iff_eq, decide_eq_true_eq,
    and_assoc]

theorem toNat_v6Dest (f : List Byte) : (v6Dest f).toNat = field f 38 16 :=
  (BitVec.toNat_ofNat _ _).trans (Nat.mod_eq_of_lt (field_lt f 38 16))

theorem toNat_v6Target (f : List Byte) : (v6Target f).toNat = field f 62 16 :=
  (BitVec.toNat_ofNat _ _).trans (Nat.mod_eq_of_lt (field_lt f 62 16))

theorem toNat_solicitedGroup (a : BitVec 128) :
    (solicitedGroup a).toNat = 0xFF0200000000000000000001FF000000 + a.toNat % 2 ^ 24 := by
  rw [solicitedGroup, low3, BitVec.toNat_ofNat]
  omega

theorem isV6Neighbour_iff {f : List Byte} : isV6Neighbour f = true ↔ V6Neighbour f := by
  simp only [isV6Neighbour, V6Neighbour, frameType, typeIPv6, Bool.and_eq_true, Bool.or_eq_true, beq_iff_eq, bne_iff_ne,
    decide_eq_true_eq, and_assoc]
  refine and_congr_right fun _ => and_congr_right fun _ => and_congr_right fun _ => and_congr_right fun type => ?_
  rw [v6PayloadLength, ← BitVec.toNat_inj, ← BitVec.toNat_inj, toNat_solicitedGroup, toNat_v6Dest, toNat_v6Target]
  omega

/-- The types differ (R83). -/
theorem V6Neighbour.not_v4 {f : List Byte} (h : V6Neighbour f) : ¬ V4Resolution f := by
  obtain ⟨v6, -⟩ := h
  rintro ⟨v4, -⟩
  exact absurd (v4.symm.trans v6) (by decide)

/-- The checksum is over the frame's own bytes, its checksum field read as 0000h (R207). -/
theorem checksumGood_iff {f : List Byte} (h : V6Neighbour f) : checksumGood f = true ↔ field f 56 2 = frameChecksum f := by
  obtain ⟨-, -, -, -, -, long, fits, -, -⟩ := h
  have message : withChecksum (slice f 54 (field f 18 2)) 0 = slice f 54 2 ++ ([0x00#8, 0x00#8] ++ slice f 58 (field f 18 2 - 4)) := by
    rw [withChecksum, take_slice (by omega), drop_slice, List.append_assoc]
    rfl
  have length : (withChecksum (slice f 54 (field f 18 2)) 0).length = field f 18 2 := by
    rw [message, List.length_append, List.length_append, length_slice (by omega), length_slice (by omega), List.length_cons,
      List.length_singleton]
    omega
  have addresses : slice f 22 32 = slice f 22 16 ++ slice f 38 16 := slice_split f 22 16 16
  rw [checksumGood, beq_iff_eq, v6PayloadLength, icmpChecksum, length, message, onesSum_eq_wordSum, frameChecksum, addresses]
  simp only [List.append_assoc]

/-! #### UNICAST TO SLOT (R87, R88) -/

/-- The destination protocol address of an IPv4 or IPv6 frame is `a` (R87). -/
def SentTo (f : List Byte) (a : Addr) : Prop :=
  field f 12 2 = 0x0800 ∧ a = Addr.v4 (BitVec.ofNat 32 (field f 30 4))
    ∨ field f 12 2 = 0x86DD ∧ a = Addr.v6 (BitVec.ofNat 128 (field f 38 16))

theorem destProtocol_iff {f : List Byte} {a : Addr} : destProtocol f = some a ↔ SentTo f a := by
  unfold destProtocol SentTo frameType typeIPv4 typeIPv6
  split
  · next v4 => simp [v4, eq_comm]
  · split
    · next v6 => simp [v6, eq_comm]
    · next v4 v6 => simp [v4, v6]

/-- Slot `n` is in MIRRORED mode for the client `d` (R87). -/
def State.Mirrors (s : State) (d : LinkAddr) (n : Fin 16) : Prop := (s.slot n).mode = some .mirrored ∧ (s.slot n).client = some d

/-- The frame is to the station address, and slot `n`, in OWN mode, owns the held entry of its destination protocol address (R87). -/
def State.OwnsDest (s : State) (f : List Byte) (n : Fin 16) : Prop :=
  destLink f = s.settings.station ∧ ∃ a e b, SentTo f a ∧ s.lookup a = some e ∧ s.binding e = some b
    ∧ (b.claim = .held ∨ b.claim = .defended) ∧ b.owner = n ∧ (s.slot n).mode = some .own

theorem mirroredSlot_some {s : State} {d : LinkAddr} {n : Fin 16} (h : s.mirroredSlot d = some n) : s.Mirrors d n := by
  simpa [State.Mirrors] using List.find?_some h

theorem mirroredSlot_none_iff {s : State} {d : LinkAddr} : s.mirroredSlot d = none ↔ ∀ n, ¬ s.Mirrors d n := by
  simp [State.mirroredSlot, State.Mirrors]

theorem isHeld_iff {c : ClaimState} : c.isHeld = true ↔ c = .held ∨ c = .defended := by cases c <;> decide

theorem ownSlot_iff {s : State} {f : List Byte} {n : Fin 16} : s.ownSlot f = some n ↔ s.OwnsDest f n := by
  constructor
  · intro h
    unfold State.ownSlot at h
    split at h
    · next station =>
      split at h
      · next e found =>
        obtain ⟨a, sent, found⟩ := Option.bind_eq_some_iff.mp found
        split at h
        · next b bound =>
          split at h
          · next fits =>
            cases h
            rw [Bool.and_eq_true, isHeld_iff, beq_iff_eq] at fits
            exact ⟨station, a, e, b, destProtocol_iff.mp sent, found, bound, fits.1, rfl, fits.2⟩
          · cases h
        · cases h
      · cases h
    · cases h
  · rintro ⟨station, a, e, b, sent, found, bound, held, rfl, own⟩
    rw [State.ownSlot, if_pos station, destProtocol_iff.mpr sent]
    simp only [Option.bind_some, found, bound, isHeld_iff.mpr held, own]
    rfl

theorem unicastSlot_group {s : State} {f : List Byte} (group : isGroup (destLink f) = true) : s.unicastSlot f = none := if_pos group

/-- The MIRRORED slot comes before the OWN slot (R87). -/
theorem unicastSlot_mirrored {s : State} {f : List Byte} {n : Fin 16} (single : isGroup (destLink f) ≠ true)
    (mirrors : s.Mirrors (destLink f) n) (only : ∀ m, s.Mirrors (destLink f) m → m = n) : s.unicastSlot f = some n := by
  rw [State.unicastSlot, if_neg single]
  cases h : s.mirroredSlot (destLink f) with
  | none => exact absurd mirrors (mirroredSlot_none_iff.mp h n)
  | some m => exact congrArg some (only m (mirroredSlot_some h))

theorem unicastSlot_notMirrored {s : State} {f : List Byte} (single : isGroup (destLink f) ≠ true)
    (unmirrored : ∀ m, ¬ s.Mirrors (destLink f) m) : s.unicastSlot f = s.ownSlot f := by
  rw [State.unicastSlot, if_neg single, mirroredSlot_none_iff.mpr unmirrored]

theorem unicastSlot_none {s : State} {f : List Byte} (h : ∀ n, ¬ s.Mirrors (destLink f) n ∧ ¬ s.OwnsDest f n) :
    s.unicastSlot f = none := by
  by_cases group : isGroup (destLink f) = true
  · exact unicastSlot_group group
  · rw [unicastSlot_notMirrored group fun m => (h m).1]
    exact Option.eq_none_iff_forall_ne_some.mpr fun n own => (h n).2 (ownSlot_iff.mp own)

/-! #### The classes in their order (R83) -/

theorem classify_v4 {f : List Byte} (s : State) (h : V4Resolution f) : s.classify f = .resolution (readV4Resolution f) :=
  if_pos (isV4Resolution_iff.mpr h)

/-- A V6 neighbour message is read only when its checksum is right (R86). -/
theorem classify_v6 {f : List Byte} (s : State) (h : V6Neighbour f) :
    s.classify f = if checksumGood f then .resolution (readV6Neighbour f) else .dropped := by
  rw [State.classify, if_neg (h.not_v4 ∘ isV4Resolution_iff.mp), if_pos (isV6Neighbour_iff.mpr h)]

theorem classify_unicast {s : State} {f : List Byte} {n : Fin 16} (v4 : ¬ V4Resolution f) (v6 : ¬ V6Neighbour f)
    (h : s.unicastSlot f = some n) : s.classify f = .unicast n := by
  rw [State.classify, if_neg (v4 ∘ isV4Resolution_iff.mp), if_neg (v6 ∘ isV6Neighbour_iff.mp), h]

theorem classify_other {s : State} {f : List Byte} (v4 : ¬ V4Resolution f) (v6 : ¬ V6Neighbour f)
    (h : s.unicastSlot f = none) : s.classify f = .other := by
  rw [State.classify, if_neg (v4 ∘ isV4Resolution_iff.mp), if_neg (v6 ∘ isV6Neighbour_iff.mp), h]

/-! ### Frames only counted (R79, R86, R93) -/

/-- A frame that leaves nothing to take leaves what the intake makes of it (R103). -/
theorem exec_frame {bytes : List Byte} {fcsGood : Bool} {s u : State} (h : Settled s) (intake : takeFrame bytes fcsGood s = u)
    (rest : u.canTake = s.canTake) : exec (.frameTaken bytes fcsGood) s = .next u := by
  subst intake
  exact event_settled _ s h.1 (rest.trans h.2)

theorem takeFrame_refused {bytes : List Byte} {fcsGood : Bool} {s : State} (h : s.accept bytes fcsGood = .refused) :
    takeFrame bytes fcsGood s = s.count DeviceCounters.countRefused := by
  rw [takeFrame, h]

theorem takeFrame_ignored {bytes : List Byte} {fcsGood : Bool} {s : State} (h : s.accept bytes fcsGood = .ignored) :
    takeFrame bytes fcsGood s = s := by
  rw [takeFrame, h]

theorem takeFrame_other {bytes : List Byte} {fcsGood : Bool} {s : State} {f : List Byte} (h : s.accept bytes fcsGood = .taken f)
    (other : s.classify f = .other) : takeFrame bytes fcsGood s = s.count DeviceCounters.countTaken := by
  have other : (s.count DeviceCounters.countTaken).classify f = .other := other
  rw [takeFrame, h]
  simp only [State.dispatchFrame, other]

theorem takeFrame_dropped {bytes : List Byte} {fcsGood : Bool} {s : State} {f : List Byte} (h : s.accept bytes fcsGood = .taken f)
    (dropped : s.classify f = .dropped) :
    takeFrame bytes fcsGood s = (s.count DeviceCounters.countTaken).count DeviceCounters.countChecksum := by
  have dropped : (s.count DeviceCounters.countTaken).classify f = .dropped := dropped
  rw [takeFrame, h]
  simp only [State.dispatchFrame, dropped]

/-- Settles O38: the classes by their conditions in order, the fields byte by byte, and the intake of each frame that is only counted. -/
theorem framesCountedOnly : Obligations.FramesCountedOnly := by
  refine ⟨fun s f => ⟨?_, ?_, ?_, ?_⟩, fun f off => ⟨field_none f off, fun n => field_succ⟩,
    fun bytes fcsGood s h => ⟨?_, ?_, ?_, ?_⟩⟩
  · exact fun v4 => classify_v4 s v4
  · exact fun v6 sum => (classify_v6 s v6).trans (if_pos ((checksumGood_iff v6).mpr sum))
  · exact fun v6 sum => (classify_v6 s v6).trans (if_neg (sum ∘ (checksumGood_iff v6).mp))
  · exact fun v4 v6 =>
      ⟨fun group => classify_other v4 v6 (unicastSlot_group group),
        fun n single mirrors only => classify_unicast v4 v6 (unicastSlot_mirrored single mirrors only),
        fun n single unmirrored own =>
          classify_unicast v4 v6 ((unicastSlot_notMirrored single unmirrored).trans (ownSlot_iff.mpr own)),
        fun none => classify_other v4 v6 (unicastSlot_none none)⟩
  · exact ⟨_, event_running _ s h.1⟩
  · exact fun refused => exec_frame h (takeFrame_refused refused) rfl
  · exact fun ignored => exec_frame h (takeFrame_ignored ignored) rfl
  · exact fun f taken =>
      ⟨fun other => exec_frame h (takeFrame_other taken other) rfl, fun dropped => exec_frame h (takeFrame_dropped taken dropped) rfl⟩

end Sys2Proof.Machine

namespace Sys2Proof.Machine

/-! ## The reply queue and the transmitter -/

/-! ### The transmitter's take (R101, R103 to R105) -/

theorem takeItems_idle (k : Nat) {s : State} (h : s.canTake = false) : State.takeItems k s = s := by
  cases k with
  | zero => rfl
  | succ k => exact if_neg (ne_true_of_eq_false h)

/-- More takes than there are items queued or waiting take no more. -/
theorem takeItems_succ (k : Nat) : ∀ s : State, s.queue.length + s.waiting ≤ k → State.takeItems (k + 1) s = State.takeItems k s := by
  induction k with
  | zero =>
    intro s h
    exact takeItems_idle _ (takeItems_done 0 s h)
  | succ k ih =>
    intro s h
    by_cases can : s.canTake = true
    · have queued : s.queue ≠ [] := by rintro q; simp [State.canTake, q] at can
      have fewer := takeHead_fewer queued
      exact (if_pos can).trans ((ih s.takeHead (by omega)).trans (if_pos can).symm)
    · have none := eq_false_of_ne_true can
      rw [takeItems_idle _ none, takeItems_idle _ none]

theorem takeItems_enough {k : Nat} {s : State} (h : s.queue.length + s.waiting ≤ k) : State.takeItems k s = s.serve := by
  induction k, h using Nat.le_induction with
  | base => rfl
  | succ k h ih => exact (takeItems_succ k s h).trans ih

/-- The transmitter takes the head item, and then what it still can (R105). -/
theorem serve_takeHead {s : State} (h : s.canTake = true) : s.serve = s.takeHead.serve := by
  have queued : s.queue ≠ [] := by rintro q; simp [State.canTake, q] at h
  have fewer := takeHead_fewer queued
  obtain ⟨k, hk⟩ := Nat.exists_eq_succ_of_ne_zero (Nat.ne_zero_of_lt fewer)
  rw [State.serve, hk]
  exact (if_pos h).trans (takeItems_enough (by omega))

/-- The head item leaves, its place is given to a waiting duty, and the item is sent if it is valid, and discarded otherwise
(R101, R103 to R105). -/
theorem takeHead_cons {s : State} {item : Item} {rest : List Item} (h : s.queue = item :: rest) : s.takeHead =
    if (State.givePlace { s with queue := rest }).valid item then
      { State.givePlace { s with queue := rest } with tx := some ((State.givePlace { s with queue := rest }).sendingOf item) }
    else (State.givePlace { s with queue := rest }).count DeviceCounters.countDiscarded := by
  rw [State.takeHead, h]

/-- A free place is given to the lowest-numbered waiting duty, if it may become an item (R100, R101). -/
theorem givePlace_lowest {s : State} {e : Fin 96} {d : Duty} (duty : s.duty e = some d) (first : ∀ c, c < e → s.duty c = none) :
    s.givePlace = s.offerDuty e := by
  have lowest : s.lowestDuty = some e := find?_finRange (by simp [duty]) fun c hc => by simp [first c hc]
  simp only [State.givePlace, lowest]

/-- Without a link, a place or a waiting duty nothing is taken (R100). -/
theorem givePlace_waits {s : State} (h : s.link = false ∨ 16 ≤ s.queue.length ∨ ∀ e, s.duty e = none) : s.givePlace = s := by
  rw [← or_assoc] at h
  rcases h with h | none
  · unfold State.givePlace
    split
    · exact offerDuty_waits s _ (.inr h)
    · rfl
  · exact givePlace_none none

/-- Settles O50: the waiting duty with the lowest number is offered. -/
theorem pendingDutyTakesPlace : Obligations.PendingDutyTakesPlace := by
  intro s h
  refine ⟨fun waits => ?_, fun e d up room sends duty first => ?_⟩
  · have stays := givePlace_waits waits
    exact (event_settled _ s h.1 (by rw [stays]; exact h.2)).trans (by rw [stays])
  · have taken := (givePlace_lowest duty first).trans (offerDuty_taken s e d duty up room)
    exact (event_settled _ s h.1 (by rw [taken]; exact canTake_sending sends)).trans (by rw [taken])

/-! ### Validation (R104) -/

theorem answers_iff {x : SlotState} : x.answers = true ↔ x = .proxying ∨ x = .waking := by cases x <;> decide

theorem valid_iff {s : State} {i : Item} : s.valid i = true ↔ ∃ b, s.binding i.entry = some b ∧ (s.entry i.entry).gen = i.gen
    ∧ kindValid i.kind b.claim (s.slot b.owner).state = true := by
  rw [State.valid, Bool.and_eq_true, beq_iff_eq]
  cases s.binding i.entry with
  | none => simp
  | some b => simp

/-- Items and duties that move do not change whether an item is valid, or its frame (R104, R106). -/
theorem QueueMoved.sending {s t : State} (h : QueueMoved s t) (i : Item) : t.valid i = s.valid i ∧ t.sendingOf i = s.sendingOf i := by
  have answer : ∀ n, t.answerAddress n = s.answerAddress n := fun n => by
    simp only [State.answerAddress, h.slot, h.settings]
  have frame : ∀ b d, t.frameOf i { b with duty := d } = s.frameOf i b := fun b d => by
    simp only [State.frameOf, h.slot, answer]
  unfold State.valid State.sendingOf State.buildFrame
  rw [h.gen, h.settings]
  rcases h.binding i.entry with same | dropped
  · rw [same]
    cases s.binding i.entry with
    | none => exact ⟨rfl, rfl⟩
    | some b => exact ⟨by simp only [h.slot], by simp only [frame b b.duty]⟩
  · rw [dropped]
    cases s.binding i.entry with
    | none => exact ⟨rfl, rfl⟩
    | some b => exact ⟨by simp only [Option.map_some, h.slot], by simp only [Option.map_some, frame]⟩

/-- Settles O49: the place of the head item is given away, and what is then done with the item. -/
theorem headItemTaken : Obligations.HeadItemTaken := by
  intro s running
  have exec_take : ∀ u : State, u.resetAsserted = false → exec .itemTake u = .next u.serve := event_running id
  refine ⟨exec_take s running, fun rest => (exec_take s running).trans (by rw [serve_idle s rest]), ?_⟩
  intro item rest v idle up queue place fits
  obtain ⟨given, counters⟩ : State.givePlace { s with queue := rest } = v ∧ v.counters = s.counters := by
    rcases place with ⟨none, rfl⟩ | ⟨e, d, duty, first, room, rfl⟩
    · exact ⟨givePlace_none (s := { s with queue := rest }) none, rfl⟩
    · exact ⟨(givePlace_lowest (s := { s with queue := rest }) duty first).trans (offerDuty_taken _ e d duty up room), rfl⟩
  have moved : QueueMoved { s with queue := rest } v := given ▸ givePlace_moved _
  obtain ⟨valid, sending⟩ := moved.sending item
  have fits_iff : fits ↔ v.valid item = true := by
    rw [valid]
    refine Iff.trans ?_ (valid_iff (s := s)).symm
    refine exists_congr fun b => and_congr_right fun _ => and_congr_right fun _ => ?_
    cases item.kind with
    | answerV4 => simp [kindValid, isHeld_iff, answers_iff]
    | answerV6 => simp [kindValid, isHeld_iff, answers_iff]
    | duty d => cases d <;> simp [kindValid, isHeld_iff, or_assoc]
  have served : exec .itemTake s = .next s.takeHead.serve :=
    (exec_take s running).trans (congrArg _ (serve_takeHead (by simp [State.canTake, idle, up, queue])))
  have head := takeHead_cons queue
  rw [given] at head
  refine ⟨fun fit => ?_, fun unfit => ?_⟩
  · rw [served, head, if_pos (fits_iff.mp fit), sending]
    exact congrArg _ (serve_idle _ (canTake_sending (Option.some_ne_none _)))
  · rw [served, head, if_neg (unfit ∘ fits_iff.mpr), ← counters]
    exact (exec_take (v.count DeviceCounters.countDiscarded) (moved.resetAsserted.trans running)).symm

end Sys2Proof.Machine

namespace Sys2Proof.Machine

/-! ### The queue's law within an event (R97, R100, R102, R114, R116) -/

/-- The queue's law but for the duties of the entries `es`, which an event has set and not offered yet. -/
def QueueLawBut (es : List (Fin 96)) (s : State) : Prop :=
  s.queue.length ≤ 16 ∧ (s.link = true → (∃ e, e ∉ es ∧ s.duty e ≠ none) → s.queue.length = 16)
    ∧ (s.link = false → s.queue = [] ∧ s.tx = none)

/-- `t` has the queue and the link of `s`, a frame in transmission only if `s` has one, and of the entries outside `es` no duty pending that
is not pending in `s`. -/
structure QueueStill (es : List (Fin 96)) (s t : State) : Prop where
  queue : t.queue = s.queue
  link : t.link = s.link
  tx : s.tx = none → t.tx = none
  duty : ∀ e, e ∉ es → s.duty e = none → t.duty e = none

namespace QueueStill

variable {es : List (Fin 96)} {s t u : State}

theorem of_entries (queue : t.queue = s.queue) (link : t.link = s.link) (tx : t.tx = s.tx) (entries : t.entries = s.entries) :
    QueueStill es s t :=
  ⟨queue, link, tx.trans, fun e _ none => (duty_congr (congrArg (fun l : Vector Entry 96 => l[e]) entries)).trans none⟩

theorem refl (s : State) : QueueStill es s s := of_entries rfl rfl rfl rfl

theorem trans (h : QueueStill es s t) (k : QueueStill es t u) : QueueStill es s u :=
  ⟨k.queue.trans h.queue, k.link.trans h.link, k.tx ∘ h.tx, fun e he none => k.duty e he (h.duty e he none)⟩

/-- A change of the bindings of `cs` that sets a duty only on entries of `es`. -/
theorem modBindings {cs : List (Fin 96)} {g : Binding → Binding}
    (drops : ∀ e ∈ cs, e ∉ es → ∀ b, s.binding e = some b → b.duty = none → (g b).duty = none) :
    QueueStill es s (s.modBindings cs g) where
  queue := rfl
  link := rfl
  tx := id
  duty e he none := by
    by_cases listed : e ∈ cs
    · unfold State.duty at none ⊢
      rw [binding_modBindings, if_pos listed]
      cases hb : s.binding e with
      | none => rfl
      | some b =>
        rw [hb] at none
        exact drops e listed he b hb none
    · exact (duty_congr (by rw [entry_modBindings, if_neg listed])).trans none

theorem modBinding {e : Fin 96} {g : Binding → Binding} (drops : e ∉ es → ∀ b, b.duty = none → (g b).duty = none) :
    QueueStill es s (s.modBinding e g) := by
  rw [modBinding_eq]
  refine modBindings fun c listed he b _ => ?_
  rw [List.mem_singleton.mp listed] at he
  exact drops he b

theorem freeEntries (s : State) (cs : List (Fin 96)) : QueueStill es s (s.freeEntries cs) :=
  ⟨rfl, rfl, id, fun e _ none => by
    unfold State.duty at none ⊢
    rw [binding_freeEntries]
    split
    · rfl
    · exact none⟩

end QueueStill

/-- An empty queue beside an idle transmitter and no duty fulfils the law, whatever the link. -/
theorem queueLaw_of_empty {s : State} (queue : s.queue = []) (tx : s.tx = none) (duty : ∀ e, s.duty e = none) : QueueLaw s :=
  ⟨by simp [queue], fun _ ⟨e, waits⟩ => absurd (duty e) waits, fun _ => ⟨queue, tx⟩⟩

theorem QueueLaw.but {es : List (Fin 96)} {s t : State} (h : QueueLaw s) (k : QueueStill es s t) : QueueLawBut es t := by
  obtain ⟨room, full, down⟩ := h
  rw [QueueLawBut, k.queue, k.link]
  refine ⟨room, fun up ⟨e, he, waits⟩ => full up ⟨e, waits ∘ k.duty e he⟩, fun off => ?_⟩
  exact ⟨(down off).1, k.tx (down off).2⟩

theorem QueueLaw.still {s t : State} (h : QueueLaw s) (k : QueueStill [] s t) : QueueLaw t := by
  obtain ⟨room, full, down⟩ := h.but k
  exact ⟨room, fun up ⟨e, waits⟩ => full up ⟨e, List.not_mem_nil, waits⟩, down⟩

/-- Offering the duties that an event has set restores the law: those that still wait found the queue full (R100). -/
theorem Offered.queueLaw {es : List (Fin 96)} {s t : State} (h : Offered s t es) (law : QueueLawBut es s) : QueueLaw t := by
  have moved := h.queueMoved
  obtain ⟨same, queue, entry⟩ := h
  obtain ⟨room, full, down⟩ := law
  have tx : t.tx = s.tx := by rw [same]
  rw [QueueLaw, moved.link, tx]
  cases link : s.link with
  | false =>
    obtain ⟨empty, idle⟩ := down link
    have none : t.queue = [] := by simp [queue, link, empty]
    exact ⟨by simp [none], nofun, fun _ => ⟨none, idle⟩⟩
  | true =>
    simp only [link, if_true] at queue entry
    generalize owes : ((List.finRange 96).filter fun e => decide (e ∈ es) && (s.duty e).isSome) = owing at queue entry
    have duty : ∀ e ∈ owing, (s.duty e).isSome = true := fun e he => by
      rw [← owes, List.mem_filter, Bool.and_eq_true] at he
      exact he.2.2
    have length : t.queue.length = s.queue.length + min (16 - s.queue.length) owing.length := by
      rw [queue, List.length_append, List.length_filterMap_eq_countP, List.countP_eq_length.mpr, List.length_take]
      intro e he
      rw [Option.isSome_map]
      exact duty e (List.mem_of_mem_take he)
    refine ⟨by omega, fun _ ⟨e, waits⟩ => ?_, nofun⟩
    have left : e ∉ owing.take (16 - s.queue.length) := fun taken => waits (by
      rw [State.duty, State.binding_eq, entry e, if_pos taken, Entry.binding_modBinding]
      cases (s.entry e).binding <;> rfl)
    have waited : s.duty e ≠ none := duty_congr ((entry e).trans (if_neg left)) ▸ waits
    by_cases listed : e ∈ es
    · have owed : e ∈ owing := by
        rw [← owes]
        simpa [listed] using Option.isSome_iff_ne_none.mpr waited
      have more : 16 - s.queue.length < owing.length := by
        by_contra all
        exact left (by rwa [List.take_of_length_le (Nat.le_of_not_lt all)])
      omega
    · have := full link ⟨e, listed, waited⟩
      omega

theorem QueueLaw.offerDuty {s u : State} {e : Fin 96} (h : QueueLaw s) (k : QueueStill [e] s u) : QueueLaw (u.offerDuty e) :=
  (offerDuty_offered u e).queueLaw (h.but k)

theorem QueueLaw.offerDuties {s u : State} {es : List (Fin 96)} (h : QueueLaw s) (k : QueueStill es s u) : QueueLaw (u.offerDuties es) :=
  (offerDuties_offered u es).queueLaw (h.but k)

/-! ### The transmitter's take keeps the law (R101) -/

/-- A queue beside waiting duties with one place free is full again when the place is given away (R101, R102). -/
theorem givePlace_queueLaw {s : State} (up : s.link = true) (room : s.queue.length < 16)
    (one : (∃ e, s.duty e ≠ none) → s.queue.length = 15) : QueueLaw s.givePlace := by
  have down : ¬ s.link = false := by simp [up]
  unfold State.givePlace
  split
  · next e lowest =>
    obtain ⟨d, duty⟩ := Option.isSome_iff_exists.mp (List.find?_some lowest :)
    have full : (s.offerDuty e).queue.length = 16 := by
      rw [offerDuty_taken s e d duty up room, List.length_append, one ⟨e, by simp [duty]⟩]
      rfl
    exact ⟨full.le, fun _ _ => full, fun off => absurd ((offerDuty_moved s e).link.symm.trans off) down⟩
  · next lowest =>
    have none : ∀ e, s.duty e = none := by simpa [State.lowestDuty] using lowest
    exact ⟨room.le, fun _ ⟨e, waits⟩ => absurd (none e) waits, fun off => absurd off down⟩

/-- The place of the head item goes to a waiting duty, so a queue beside one stays full (R101, R102). -/
theorem QueueLaw.takeHead {s : State} (h : QueueLaw s) (can : s.canTake = true) : QueueLaw s.takeHead := by
  obtain ⟨room, full, -⟩ := h
  simp only [State.canTake, Bool.and_eq_true] at can
  obtain ⟨⟨-, up⟩, queued⟩ := can
  cases queue : s.queue with
  | nil => simp [queue] at queued
  | cons item rest =>
    rw [queue, List.length_cons] at room full
    have link : (State.givePlace { s with queue := rest }).link = true := (givePlace_moved _).link.trans up
    obtain ⟨room, full, -⟩ := givePlace_queueLaw (s := { s with queue := rest }) up room fun waits => Nat.succ.inj (full up waits)
    rw [takeHead_cons queue]
    split <;> exact ⟨room, full, fun off => absurd (link.symm.trans off) Bool.true_eq_false.mp⟩

theorem QueueLaw.serve {s : State} (h : QueueLaw s) : QueueLaw s.serve := by
  unfold State.serve
  generalize s.queue.length + s.waiting = k
  induction k generalizing s with
  | zero => exact h
  | succ k ih =>
    unfold State.takeItems
    split
    · next can => exact ih (h.takeHead can)
    · exact h

/-! ### Link up (R100, R103, R113, R116) -/

/-- A device kind may be raised before duties are offered, or after. -/
theorem Offered.raiseDevice {s t : State} {es : List (Fin 96)} (h : Offered s t es) (k : DeviceKind) :
    Offered (s.raiseDevice k) (t.raiseDevice k) es := by
  obtain ⟨same, queue, entry⟩ := h
  refine ⟨?_, queue, entry⟩
  conv_lhs => rw [same]
  rfl

/-- With no duty waiting an offer changes nothing. -/
theorem Offered.eq_of_no_duty {s t : State} {es : List (Fin 96)} (h : Offered s t es) (none : ∀ e, s.duty e = none) : t = s := by
  obtain ⟨same, queue, entry⟩ := h
  simp only [none, Option.isSome_none, Bool.and_false, List.filter_false, List.take_nil, ite_self, List.filterMap_nil, List.append_nil,
    List.not_mem_nil, if_false] at queue entry
  have entries : t.entries = s.entries := Vector.ext fun i hi => entry ⟨i, hi⟩
  rw [same, queue, entries]

/-- Settles O35: with every duty offered the queue fulfils its law, and the take keeps it. -/
theorem linkUpOutcome : Obligations.LinkUpOutcome := by
  intro s h
  refine ⟨fun up => ?_, fun down => ?_⟩
  · have stays : linkRise s = s := if_pos up
    exact (event_settled linkRise s h.1 (by rw [stays]; exact h.2)).trans (by rw [stays])
  intro u
  have rises : linkRise s = _ := if_neg (ne_true_of_eq_false down)
  have offered : Offered u (linkRise s) (List.finRange 96) := rises ▸ (offerAll_offered { s with link := true }).raiseDevice .linkUp
  refine ⟨linkRise s, offered, event_running linkRise s h.1, offered.served, fun empty idle none => ?_, fun ⟨e, waits⟩ room => ?_⟩
  · rw [offered.eq_of_no_duty none]
    exact serve_idle u (by simp [State.canTake, u, empty])
  · have but : QueueLawBut (List.finRange 96) u := ⟨room, fun _ ⟨e, he, _⟩ => absurd (List.mem_finRange e) he, nofun⟩
    obtain ⟨-, full, -⟩ := (offered.queueLaw but).serve
    exact full ((serve_moved _).link.trans offered.queueMoved.link) ⟨e, waits⟩

end Sys2Proof.Machine

namespace Sys2Proof.Machine

/-! ### Which changes of a binding set no duty -/

theorem Binding.endDefence_duty {b : Binding} (h : b.duty = none) : b.endDefence.duty = none := by
  unfold Binding.endDefence
  split
  · simp [h]
  · exact h

theorem Binding.disarm_duty {b : Binding} (h : b.duty = none) : b.disarm.duty = none := by
  unfold Binding.disarm
  split
  · rfl
  · rfl
  · rfl
  · exact h
  · exact h

theorem Binding.probeSent_duty (due : Nat) {b : Binding} (h : b.duty = none) : (b.probeSent due).duty = none := by
  simp [Binding.probeSent, h]

/-- Entering RELEASING sets a duty only on the entries that are held (R51, R186). -/
theorem Binding.release_duty {b : Binding} (h : b.claim.isHeld = false) : b.release.duty = none := by
  simp [Binding.release, h]

/-! ### Every event keeps the queue's law -/

section
variable {s : State} (h : QueueLaw s)
include h

/-- An update that leaves the queue, the transmitter, the link and the entries alone. -/
theorem QueueLaw.same {t : State} (queue : t.queue = s.queue) (link : t.link = s.link) (tx : t.tx = s.tx) (entries : t.entries = s.entries) :
    QueueLaw t := h.still (.of_entries queue link tx entries)

theorem QueueLaw.modSlot (n : Fin 16) (f : Slot → Slot) : QueueLaw (s.modSlot n f) := h.same rfl rfl rfl rfl

theorem QueueLaw.count (f : DeviceCounters → DeviceCounters) : QueueLaw (s.count f) := h.same rfl rfl rfl rfl

theorem QueueLaw.raiseDevice (k : DeviceKind) : QueueLaw (s.raiseDevice k) := h.same rfl rfl rfl rfl

/-! #### Slots (R33, R42, R44, R51, R54) -/

theorem QueueLaw.startWake (n : Fin 16) (c : WakeCause) : QueueLaw (s.startWake n c) := h.modSlot n _

theorem QueueLaw.wakeTrigger (n : Fin 16) (c : WakeCause) : QueueLaw (s.wakeTrigger n c) := by
  unfold State.wakeTrigger
  split
  · exact h.startWake n c
  · exact h

theorem QueueLaw.endOfProbing (n : Fin 16) : QueueLaw (s.endOfProbing n) := by
  rw [endOfProbing_eq]
  exact h.modSlot n _

theorem QueueLaw.probingStart (n : Fin 16) : QueueLaw (s.probingStart n) :=
  h.offerDuties (.trans (.modBindings fun _ listed other => absurd listed other) (.of_entries rfl rfl rfl rfl))

theorem QueueLaw.handback (n : Fin 16) : QueueLaw (s.handback n) :=
  h.offerDuties (.trans (.modBindings fun _ listed other => absurd listed other) (.of_entries rfl rfl rfl rfl))

theorem QueueLaw.enterReleasing (n : Fin 16) : QueueLaw (s.enterReleasing n) := by
  refine h.offerDuties (.trans (.modBindings fun e listed other b bound _ => Binding.release_duty ?_) (.of_entries rfl rfl rfl rfl))
  simpa [listed, State.isHeld, claim_of_binding bound] using other

theorem QueueLaw.becomeVacant (n : Fin 16) : QueueLaw (s.becomeVacant n) :=
  h.still (.trans (.freeEntries s _) (.of_entries rfl rfl rfl rfl))

theorem QueueLaw.enterDark (n : Fin 16) : QueueLaw (s.enterDark n) :=
  h.still (.trans (.modBindings fun _ _ _ _ _ => Binding.endDefence_duty) (.of_entries rfl rfl rfl rfl))

theorem QueueLaw.awakeRise (n : Fin 16) : QueueLaw (awakeRise n s) := by
  have level : QueueLaw (s.takeLevel n true) := h.same rfl rfl rfl rfl
  unfold Machine.awakeRise
  dsimp only
  split
  · exact level.handback n
  · exact level

theorem QueueLaw.awakeFall (n : Fin 16) : QueueLaw (awakeFall n s) := by
  have level : QueueLaw (s.takeLevel n false) := h.same rfl rfl rfl rfl
  unfold Machine.awakeFall
  dsimp only
  split
  · exact level.probingStart n
  · exact level

/-! #### Expiries and the counts of the time base (R41, R59, R68, R132, R209) -/

theorem QueueLaw.probeExpired (e : Fin 96) : QueueLaw (s.probeExpired e) := by
  have offer : ∀ g, QueueLaw ((s.modBinding e g).offerDuty e) := fun g =>
    h.offerDuty (.modBinding fun other => absurd (List.mem_singleton_self e) other)
  unfold State.probeExpired
  split
  · exact h
  · split
    · exact offer _
    · exact (offer _).endOfProbing _

theorem QueueLaw.defenceEnded (e : Fin 96) : QueueLaw (s.defenceEnded e) := h.still (.modBinding fun _ _ => Binding.endDefence_duty)

theorem QueueLaw.timeoutExpired (n : Fin 16) : QueueLaw (s.timeoutExpired n) := by
  unfold State.timeoutExpired
  split
  · exact h.modSlot n _
  · exact h.enterDark n

theorem QueueLaw.expire {timer : State → Option Nat} {act : State → State} (acts : QueueLaw (act s)) : QueueLaw (expire timer act s) := by
  unfold Machine.expire
  split
  · exact h
  · split
    · exact acts
    · exact h

theorem QueueLaw.takeDue (i : Instr) : QueueLaw (s.takeDue i) := by
  refine QueueLaw.serve ?_
  unfold dueAction
  split
  · exact h.awakeRise _
  · exact h.awakeFall _
  · exact h.expire (h.modSlot _ _)
  · exact h.expire (h.timeoutExpired _)
  · exact h.expire (h.probeExpired _)
  · exact h.expire (h.defenceEnded _)
  · exact h

theorem QueueLaw.passCounts (k : Nat) : QueueLaw (s.passCounts k) := h.same rfl rfl rfl rfl

theorem QueueLaw.oneCount : QueueLaw s.oneCount :=
  List.foldlRecOn _ State.takeDue (h.passCounts 1) fun _ law i _ => law.takeDue i

omit h in
theorem advanceWithin_queueLaw (k d : Nat) : ∀ {s : State}, QueueLaw s → QueueLaw (advanceWithin k d s) := by
  induction k with
  | zero => exact id
  | succ k ih =>
    intro s h
    have quiet : QueueLaw (s.skipQuiet d) := by
      unfold State.skipQuiet
      split
      · exact h
      · exact h.passCounts _
    unfold advanceWithin
    split
    · exact h
    · exact ih quiet.oneCount

theorem QueueLaw.expiry {timer : State → Option Nat} {act : State → State} (acts : QueueLaw (act s)) : QueueLaw (expiry timer act s) := by
  unfold Machine.expiry
  split
  · exact h
  · split
    · exact acts
    · exact advanceWithin_queueLaw _ _ h

/-! #### Frames (R63 to R65, R90, R91, R99, R126 to R128) -/

theorem QueueLaw.loseEntry (e : Fin 96) (n : Fin 16) : QueueLaw (s.loseEntry e n) :=
  h.still (.trans (.modBinding fun _ _ _ => rfl) (.of_entries rfl rfl rfl rfl))

theorem QueueLaw.firstClaim (e : Fin 96) (n : Fin 16) : QueueLaw (s.firstClaim e n) := by
  rw [firstClaim_eq]
  exact h.offerDuty (.trans (.modBinding fun other => absurd (List.mem_singleton_self e) other) (.of_entries rfl rfl rfl rfl))

theorem QueueLaw.secondClaim (e : Fin 96) (n : Fin 16) : QueueLaw (s.secondClaim e n) := by
  have lost := h.loseEntry e n
  unfold State.secondClaim
  dsimp only
  split
  · exact lost.wakeTrigger n .loss
  · exact lost

theorem QueueLaw.applyEvidence (e : Fin 96) (b : Binding) (form : ClaimForm) : QueueLaw (s.applyEvidence e b form).1 := by
  unfold State.applyEvidence
  repeat' split
  · exact h
  · exact h
  · exact (h.loseEntry e _).endOfProbing _
  · exact h.firstClaim e _
  · exact h
  · exact h
  · exact h.secondClaim e _
  · exact h
  · exact h

theorem QueueLaw.claimStep (source : LinkAddr) (r : ResFrame) : QueueLaw (s.claimStep source r).1 := by
  unfold State.claimStep
  split
  · exact h
  · split
    · exact h
    · split
      · exact h
      · split
        · exact h.applyEvidence _ _ _
        · exact h

/-- An answer is admitted only with the link up and the queue far from full (R99). -/
theorem QueueLaw.offerAnswer (item : Item) : QueueLaw (s.offerAnswer item) := by
  obtain ⟨-, full, -⟩ := id h
  unfold State.offerAnswer
  split
  · next admitted =>
    rw [Bool.and_eq_true, decide_eq_true_eq] at admitted
    obtain ⟨up, room⟩ := admitted
    have room : s.queue.length < 12 := room
    refine ⟨?_, fun _ waits => ?_, fun off => ?_⟩
    · rw [List.length_append, List.length_singleton]
      omega
    · have := full up waits
      omega
    · exact absurd (up.symm.trans off) Bool.true_eq_false.mp
  · exact h.same rfl rfl rfl rfl

theorem QueueLaw.answerStep (source : LinkAddr) (r : ResFrame) (evidence : Option (Fin 96)) :
    QueueLaw (s.answerStep source r evidence) := by
  unfold State.answerStep
  repeat' split
  · exact h
  · exact h.offerAnswer _
  · exact h

theorem QueueLaw.matchFrame (n : Fin 16) (f : List Byte) : QueueLaw (s.matchFrame n f) := by
  unfold State.matchFrame
  split
  · split
    · exact (h.modSlot n _).wakeTrigger n _
    · exact h
  · split
    · exact h.modSlot n _
    · exact h
  all_goals exact h

theorem QueueLaw.takeFrame (bytes : List Byte) (fcsGood : Bool) : QueueLaw (takeFrame bytes fcsGood s) := by
  have dispatch : ∀ {u : State}, QueueLaw u → ∀ f, QueueLaw (u.dispatchFrame f) := fun law f => by
    unfold State.dispatchFrame
    split
    · exact (law.claimStep _ _).answerStep _ _ _
    · exact law.count _
    · exact law.matchFrame _ f
    · exact law
  unfold Machine.takeFrame
  split
  · exact h.count _
  · exact h
  · exact dispatch (h.count _) _

end

end Sys2Proof.Machine

namespace Sys2Proof.Machine

/-! #### The transmitter, releases in progress and the link (R52, R53, R58, R101, R111, R114 to R116) -/

section
variable {s : State} (h : QueueLaw s)
include h

theorem QueueLaw.complete (r : Result) (data : List Byte) : QueueLaw (s.complete r data) := h.same rfl rfl rfl rfl

theorem QueueLaw.finishRelease (n : Fin 16) (r : Result) : QueueLaw (s.finishRelease n r) := (h.becomeVacant n).complete _ _

theorem QueueLaw.leaveSet (discard : Bool) (e : Fin 96) : QueueLaw (s.leaveSet discard e) := by
  rcases leaveSet_cases discard s e with stays | ⟨r, r', -, -, -, -, leaves⟩
  · rwa [stays]
  · rw [leaves]
    exact h.same rfl rfl rfl rfl

theorem QueueLaw.endReleaseIfDone : QueueLaw s.endReleaseIfDone := by
  rcases endReleaseIfDone_cases s with stays | ⟨r, res, -, -, ends⟩
  · rwa [stays]
  · rw [ends]
    exact h.finishRelease _ _

theorem QueueLaw.handbacksLeft (discard : Bool) (es : List (Fin 96)) :
    QueueLaw (es.foldl (State.leaveSet discard) s).endReleaseIfDone :=
  (List.foldlRecOn es (State.leaveSet discard) h fun _ law e _ => law.leaveSet discard e).endReleaseIfDone

theorem QueueLaw.countCompletion (x : Sending) : QueueLaw (s.countCompletion x) := by
  have answer := h.count DeviceCounters.countAnswer
  unfold State.countCompletion
  dsimp only
  repeat' split
  · exact answer.modSlot _ _
  · exact answer
  · exact answer
  · exact answer.modSlot _ _
  · exact answer
  · exact answer
  · exact h.count _

theorem QueueLaw.reportCompletion (x : Sending) : QueueLaw (s.reportCompletion x) := by
  have probe : QueueLaw (s.probeCompleted x.entry x.gen) := by
    unfold State.probeCompleted
    split
    · exact h
    · split
      · exact h.still (.modBinding fun _ _ => Binding.probeSent_duty _)
      · exact h
  have handback : QueueLaw (s.handbackCompleted x.entry x.gen) := by
    unfold State.handbackCompleted
    split
    · exact h.handbacksLeft false [x.entry]
    · exact h
  unfold State.reportCompletion
  split
  · exact probe
  · exact handback
  all_goals exact h

theorem QueueLaw.completeTransmission : QueueLaw (completeTransmission s) := by
  unfold Machine.completeTransmission
  split
  · exact h
  · next x _ =>
    exact ((h.countCompletion x).reportCompletion x).still ⟨rfl, rfl, fun _ => rfl, fun _ _ => id⟩

theorem QueueLaw.givePlace : QueueLaw s.givePlace := by
  unfold State.givePlace
  split
  · exact h.offerDuty (.refl s)
  · exact h

/-- With the link down the queue is empty and the transmitter idle, whatever waits (R114, R115). -/
theorem QueueLaw.linkFall : QueueLaw (linkFall s) := by
  cases link : s.link with
  | false => rwa [Machine.linkFall, if_neg (by simp [link])]
  | true =>
    rw [linkFall_up link]
    have discards : QueueLaw s.linkDiscards := ⟨Nat.zero_le _, nofun, fun _ => ⟨rfl, rfl⟩⟩
    exact (discards.handbacksLeft true _).raiseDevice _

theorem QueueLaw.linkRise : QueueLaw (linkRise s) := by
  unfold Machine.linkRise
  split
  · exact h
  · have but : QueueLawBut (List.finRange 96) { s with link := true } :=
      ⟨h.1, fun _ ⟨e, he, _⟩ => absurd (List.mem_finRange e) he, nofun⟩
    exact ((offerAll_offered _).queueLaw but).raiseDevice _

/-! #### The mailbox (R155, R159 to R164) -/

theorem QueueLaw.misuse : QueueLaw s.misuse := h.raiseDevice _

theorem QueueLaw.commandAreaByte (offset v : Byte) : QueueLaw (commandAreaByte offset v s) := by
  unfold Machine.commandAreaByte
  repeat' split
  · exact h.same rfl rfl rfl rfl
  · exact h.misuse
  · exact h.misuse
  · exact h

theorem QueueLaw.acknowledge : QueueLaw (acknowledge s) := by
  unfold Machine.acknowledge
  split
  · exact h.same rfl rfl rfl rfl
  · exact h.misuse
  · exact h.misuse

theorem QueueLaw.abortRelease : QueueLaw (abortRelease s) := by
  unfold Machine.abortRelease
  split
  · exact h.finishRelease _ _
  · exact h.misuse
  · exact h.misuse

theorem QueueLaw.invalidControl (v : Byte) : QueueLaw (invalidControl v s) := by
  unfold Machine.invalidControl
  split
  · exact h
  · exact h.misuse

theorem QueueLaw.refuseGo : QueueLaw (refuseGo s) := by
  unfold Machine.refuseGo
  split
  · exact h
  · exact h.misuse
  · exact h.misuse

end

/-- The records that a command's body replies with fulfil the queue's law. -/
def Reply.QueueLawful : Reply → Prop
  | .refuse _ => True
  | .done _ t => QueueLaw t
  | .started t => QueueLaw t

theorem QueueLaw.runCommand {s : State} (h : QueueLaw s) {i : Instr} {body : State → Reply}
    (lawful : ∀ u, QueueLaw u → (body u).QueueLawful) : QueueLaw (runCommand i body s) := by
  by_cases idle : s.mailbox.state = .idle
  · have placed : QueueLaw (s.placeCommand i) := h.same rfl rfl rfl rfl
    have reply := lawful _ placed
    rw [runCommand_idle i body s idle]
    cases hb : body (s.placeCommand i) with
    | refuse r => exact placed.complete r []
    | done data t =>
      rw [hb] at reply
      exact QueueLaw.complete reply .ok data
    | started t =>
      rw [hb] at reply
      exact reply
  · rw [runCommand_busy i body s idle]
    exact h.misuse

theorem QueueLaw.unknownGo {s : State} (h : QueueLaw s) (code : Byte) : QueueLaw (unknownGo code s) := by
  unfold Machine.unknownGo
  split
  · exact h
  · exact h.runCommand (body := fun _ => .refuse .unknownCommand) fun _ _ => trivial

/-! #### The bodies of the commands -/

theorem Entry.binding_free (x : Entry) : x.free.binding = none := by
  unfold Entry.free
  split
  · rfl
  · next free => simpa using free

theorem duty_of_free {s : State} {e : Fin 96} (h : s.binding e = none) : s.duty e = none := by rw [State.duty, h]; rfl

theorem deviceResetBody_queueLawful (u : State) : (deviceResetBody u).QueueLawful := by
  refine queueLaw_of_empty rfl rfl fun e => duty_of_free ?_
  simp [State.binding, State.entry, State.deviceReset, Entry.binding_free]

section
variable {u : State} (h : QueueLaw u)
include h

theorem setStationBody_queueLawful (a : LinkAddr) : (setStationBody a u).QueueLawful := by
  unfold setStationBody
  repeat' split
  any_goals exact trivial
  exact h.same rfl rfl rfl rfl

theorem setSegmentBody_queueLawful (tag : BitVec 16) : (setSegmentBody tag u).QueueLawful := by
  unfold setSegmentBody
  repeat' split
  any_goals exact trivial
  exact h.same rfl rfl rfl rfl

theorem setTimingBody_queueLawful (count : Byte) (interval : BitVec 16) (window : Byte) :
    (setTimingBody count interval window u).QueueLawful := by
  have trimmed : QueueStill [] u (u.modBindings (List.finRange 96) (Binding.trimProbes count.toNat)) := .modBindings fun _ _ _ _ _ => id
  have entries : (tabulate 96 fun e => (u.entry e).modBinding (Binding.trimProbes count.toNat))
      = (u.modBindings (List.finRange 96) (Binding.trimProbes count.toNat)).entries := by
    simp [State.modBindings, List.mem_finRange]
  unfold setTimingBody
  rw [entries]
  repeat' split
  any_goals exact trivial
  exact h.still (trimmed.trans (.of_entries rfl rfl rfl rfl))

theorem setAttentionMaskBody_queueLawful (slotMask deviceMask enable : Byte) :
    (setAttentionMaskBody slotMask deviceMask enable u).QueueLawful := by
  unfold setAttentionMaskBody
  repeat' split
  any_goals exact trivial
  exact h.same rfl rfl rfl rfl

theorem readDeviceBody_queueLawful (clear : Byte) : (readDeviceBody clear u).QueueLawful := by
  unfold readDeviceBody
  split
  · trivial
  next c _ =>
  cases c
  · exact h
  · exact h.same rfl rfl rfl rfl

theorem openSlotBody_queueLawful (slot : Byte) (client : LinkAddr) (mode : Byte) : (openSlotBody slot client mode u).QueueLawful := by
  unfold openSlotBody
  repeat' split
  any_goals exact trivial
  exact h.modSlot _ _

theorem setSlotPolicyBody_queueLawful (slot loss rearm pulse : Byte) (timeout : BitVec 16) (retries : Byte) :
    (setSlotPolicyBody slot loss rearm pulse timeout retries u).QueueLawful := by
  unfold setSlotPolicyBody
  repeat' split
  any_goals exact trivial
  exact h.modSlot _ _

/-- An inserted entry owes nothing (R14, R20). -/
theorem QueueLaw.insert (n : Fin 16) (a : Addr) (e : Fin 96) (w : Fin 4) : QueueLaw (u.insert n a e w) :=
  h.still ⟨rfl, rfl, id, fun c _ waits => by
    unfold State.duty at waits ⊢
    rw [binding_insert]
    split
    · rfl
    · exact waits⟩

theorem addAddressBody_queueLawful (slot family : Byte) (address : BitVec 128) : (addAddressBody slot family address u).QueueLawful := by
  unfold addAddressBody State.insertion
  repeat' split
  any_goals exact trivial
  exact h.insert _ _ _ _

theorem removeAddressBody_queueLawful (entry : Byte) : (removeAddressBody entry u).QueueLawful := by
  unfold removeAddressBody
  repeat' split
  any_goals exact trivial
  exact h.still (.freeEntries u _)

theorem attachPatternBody_queueLawful (slot pattern : Byte) : (attachPatternBody slot pattern u).QueueLawful := by
  unfold attachPatternBody
  repeat' split
  any_goals exact trivial
  exact h.same rfl rfl rfl rfl

theorem detachPatternBody_queueLawful (slot pattern : Byte) : (detachPatternBody slot pattern u).QueueLawful := by
  unfold detachPatternBody
  repeat' split
  any_goals exact trivial
  exact h.same rfl rfl rfl rfl

theorem armBody_queueLawful (slot : Byte) : (armBody slot u).QueueLawful := by
  unfold armBody
  repeat' split
  any_goals exact trivial
  · exact h.modSlot _ _
  · exact h.probingStart _

theorem disarmBody_queueLawful (slot : Byte) : (disarmBody slot u).QueueLawful := by
  unfold disarmBody
  repeat' split
  any_goals exact trivial
  · exact h.modSlot _ _
  · exact h.still (.trans (.modBindings fun _ _ _ _ _ => Binding.disarm_duty) (.of_entries rfl rfl rfl rfl))

theorem wakeBody_queueLawful (slot : Byte) : (wakeBody slot u).QueueLawful := by
  unfold wakeBody
  repeat' split
  any_goals exact trivial
  · exact h.startWake _ _
  · exact h.startWake _ _

theorem releaseBody_queueLawful (slot announce : Byte) : (releaseBody slot announce u).QueueLawful := by
  unfold releaseBody
  repeat' split
  any_goals exact trivial
  · exact h.enterReleasing _
  · exact h.becomeVacant _

theorem readSlotBody_queueLawful (slot clear : Byte) : (readSlotBody slot clear u).QueueLawful := by
  unfold readSlotBody
  split
  next n c _ _ =>
    cases c
    · exact h
    · exact h.same rfl rfl rfl rfl
  all_goals trivial

theorem readEntryBody_queueLawful (entry : Byte) : (readEntryBody entry u).QueueLawful := by
  unfold readEntryBody
  split
  · trivial
  · exact h

theorem lookupBody_queueLawful (family : Byte) (address : BitVec 128) : (lookupBody family address u).QueueLawful := by
  unfold lookupBody
  repeat' split
  any_goals exact trivial
  exact h

theorem readAttentionBody_queueLawful (which : Byte) : (readAttentionBody which u).QueueLawful := by
  unfold readAttentionBody
  repeat' split
  any_goals exact trivial
  · exact h.same rfl rfl rfl rfl
  · exact h.modSlot _ _

theorem writePatternBody_queueLawful (pattern offset length : Byte) (mask : BitVec 32) (value : Vector Byte 32) :
    (writePatternBody pattern offset length mask value u).QueueLawful := by
  unfold writePatternBody
  repeat' split
  any_goals exact trivial
  exact h.same rfl rfl rfl rfl

theorem clearPatternBody_queueLawful (pattern : Byte) : (clearPatternBody pattern u).QueueLawful := by
  unfold clearPatternBody
  repeat' split
  any_goals exact trivial
  exact h.same rfl rfl rfl rfl

theorem readPatternBody_queueLawful (pattern : Byte) : (readPatternBody pattern u).QueueLawful := by
  unfold readPatternBody
  split
  · trivial
  · exact h

end

/-! ### Every step keeps the queue's laws (R97, R102, R103, R114, R116) -/

/-- Every command but the two of RESET_N is an event that keeps the queue's law and ends with the transmitter's take (R103). -/
theorem exec_event {i : Instr} (power : ∀ awake link csLow, i ≠ .powerOn awake link csLow) (reset : i ≠ .resetNAsserted) :
    ∃ f : State → State, (∀ s, QueueLaw s → QueueLaw (f s)) ∧ exec i = event f := by
  cases i with
  | powerOn awake link csLow => exact absurd rfl (power awake link csLow)
  | resetNAsserted => exact absurd rfl reset
  | awakeRises n => exact ⟨_, fun _ h => h.awakeRise n, rfl⟩
  | awakeFalls n => exact ⟨_, fun _ h => h.awakeFall n, rfl⟩
  | linkLoss => exact ⟨_, fun _ h => h.linkFall, rfl⟩
  | linkUp => exact ⟨_, fun _ h => h.linkRise, rfl⟩
  | frameTaken bytes fcsGood => exact ⟨_, fun _ h => h.takeFrame bytes fcsGood, rfl⟩
  | probeTimerExpiry e => exact ⟨_, fun _ h => h.expiry (h.probeExpired e), rfl⟩
  | defenceDeadlineReached e => exact ⟨_, fun _ h => h.expiry (h.defenceEnded e), rfl⟩
  | pulseTimerExpiry n => exact ⟨_, fun _ h => h.expiry (h.modSlot n _), rfl⟩
  | wakeTimeoutExpiry n => exact ⟨_, fun _ h => h.expiry (h.timeoutExpired n), rfl⟩
  | transmissionComplete => exact ⟨_, fun _ h => h.completeTransmission, rfl⟩
  | itemTake => exact ⟨id, fun _ h => h, rfl⟩
  | pendingDutyTaken => exact ⟨_, fun _ h => h.givePlace, rfl⟩
  | commandAreaWrite offset value => exact ⟨_, fun _ h => h.commandAreaByte offset value, rfl⟩
  | windowWriteIgnored offset value => exact ⟨id, fun _ h => h, rfl⟩
  | ack => exact ⟨_, fun _ h => h.acknowledge, rfl⟩
  | abort => exact ⟨_, fun _ h => h.abortRelease, rfl⟩
  | invalidControlWrite value => exact ⟨_, fun _ h => h.invalidControl value, rfl⟩
  | unknownCommand code => exact ⟨_, fun _ h => h.unknownGo code, rfl⟩
  | goRefused => exact ⟨_, fun _ h => h.refuseGo, rfl⟩
  | setStation a => exact ⟨_, fun _ h => h.runCommand fun _ k => setStationBody_queueLawful k a, rfl⟩
  | setSegment tag => exact ⟨_, fun _ h => h.runCommand fun _ k => setSegmentBody_queueLawful k tag, rfl⟩
  | setTiming c i w => exact ⟨_, fun _ h => h.runCommand fun _ k => setTimingBody_queueLawful k c i w, rfl⟩
  | setAttentionMask a b c => exact ⟨_, fun _ h => h.runCommand fun _ k => setAttentionMaskBody_queueLawful k a b c, rfl⟩
  | readDevice c => exact ⟨_, fun _ h => h.runCommand fun _ k => readDeviceBody_queueLawful k c, rfl⟩
  | deviceReset => exact ⟨_, fun _ h => h.runCommand fun u _ => deviceResetBody_queueLawful u, rfl⟩
  | openSlot n a m => exact ⟨_, fun _ h => h.runCommand fun _ k => openSlotBody_queueLawful k n a m, rfl⟩
  | setSlotPolicy n l a p t r => exact ⟨_, fun _ h => h.runCommand fun _ k => setSlotPolicyBody_queueLawful k n l a p t r, rfl⟩
  | addAddress n f a => exact ⟨_, fun _ h => h.runCommand fun _ k => addAddressBody_queueLawful k n f a, rfl⟩
  | removeAddress e => exact ⟨_, fun _ h => h.runCommand fun _ k => removeAddressBody_queueLawful k e, rfl⟩
  | attachPattern n p => exact ⟨_, fun _ h => h.runCommand fun _ k => attachPatternBody_queueLawful k n p, rfl⟩
  | detachPattern n p => exact ⟨_, fun _ h => h.runCommand fun _ k => detachPatternBody_queueLawful k n p, rfl⟩
  | arm n => exact ⟨_, fun _ h => h.runCommand fun _ k => armBody_queueLawful k n, rfl⟩
  | disarm n => exact ⟨_, fun _ h => h.runCommand fun _ k => disarmBody_queueLawful k n, rfl⟩
  | wake n => exact ⟨_, fun _ h => h.runCommand fun _ k => wakeBody_queueLawful k n, rfl⟩
  | release n a => exact ⟨_, fun _ h => h.runCommand fun _ k => releaseBody_queueLawful k n a, rfl⟩
  | readSlot n c => exact ⟨_, fun _ h => h.runCommand fun _ k => readSlotBody_queueLawful k n c, rfl⟩
  | readEntry e => exact ⟨_, fun _ h => h.runCommand fun _ k => readEntryBody_queueLawful k e, rfl⟩
  | lookup f a => exact ⟨_, fun _ h => h.runCommand fun _ k => lookupBody_queueLawful k f a, rfl⟩
  | readAttention w => exact ⟨_, fun _ h => h.runCommand fun _ k => readAttentionBody_queueLawful k w, rfl⟩
  | writePattern p o l m v => exact ⟨_, fun _ h => h.runCommand fun _ k => writePatternBody_queueLawful k p o l m v, rfl⟩
  | clearPattern p => exact ⟨_, fun _ h => h.runCommand fun _ k => clearPatternBody_queueLawful k p, rfl⟩
  | readPattern p => exact ⟨_, fun _ h => h.runCommand fun _ k => readPatternBody_queueLawful k p, rfl⟩

/-- The two commands of RESET_N leave no item, no frame in transmission and no duty (R97). -/
theorem exec_reset {i : Instr} {s t : State} (reset : i = .resetNAsserted ∨ ∃ awake link csLow, i = .powerOn awake link csLow)
    (h : exec i s = .next t) : t.queue = [] ∧ t.tx = none ∧ ∀ e, t.duty e = none := by
  rcases reset with rfl | ⟨awake, link, csLow, rfl⟩
  all_goals
    cases h
    exact ⟨rfl, rfl, fun e => duty_of_free ((blank_of_reset (s := s) rfl rfl rfl rfl rfl rfl rfl).binding e)⟩

/-- What a step does to the queue: a count of the time base leaves it, RESET_N empties it, and every other command ends with the
transmitter's take (R97, R103, R209). -/
theorem step_cases {s t : State} (h : step s = .next t) :
    (t.queue = s.queue ∧ t.link = s.link ∧ t.tx = s.tx ∧ t.entries = s.entries)
      ∨ (t.queue = [] ∧ t.tx = none ∧ ∀ e, t.duty e = none)
      ∨ ∃ u, t = u.serve ∧ (QueueLaw s → QueueLaw u) := by
  cases pending : s.pending with
  | nil =>
    rw [step_nil s pending] at h
    cases h
    unfold tick
    split <;> exact .inl ⟨rfl, rfl, rfl, rfl⟩
  | cons i rest =>
    rw [step_cons s i rest pending] at h
    by_cases reset : i = .resetNAsserted ∨ ∃ awake link csLow, i = .powerOn awake link csLow
    · exact .inr (.inl (exec_reset reset h))
    · push Not at reset
      obtain ⟨notReset, notPower⟩ := reset
      obtain ⟨f, keeps, isEvent⟩ := exec_event notPower notReset
      rw [isEvent] at h
      rcases event_cases f _ t h with ⟨-, rfl⟩ | ⟨-, rfl⟩
      · exact .inl ⟨rfl, rfl, rfl, rfl⟩
      · exact .inr (.inr ⟨_, rfl, fun law => keeps _ law⟩)

/-- Settles O54: what is left to take is taken at the end of every event, and an event that sets duties offers them. -/
theorem queueLawsKept : Obligations.QueueLawsKept := by
  refine ⟨fun s t law h => ?_, fun s t law h => ?_⟩
  · rcases step_cases h with ⟨queue, link, tx, -⟩ | ⟨queue, -, -⟩ | ⟨u, rfl, -⟩
    · rwa [TakeLaw, State.canTake, queue, link, tx]
    · simp [TakeLaw, State.canTake, queue]
    · exact serve_done u
  · rcases step_cases h with ⟨queue, link, tx, entries⟩ | ⟨queue, tx, duty⟩ | ⟨u, rfl, keeps⟩
    · exact law.same queue link tx entries
    · exact queueLaw_of_empty queue tx duty
    · exact (keeps law).serve

end Sys2Proof.Machine

namespace Sys2Proof.Machine

/-! ## The pattern store -/

/-! ### One pattern and one frame (R124) -/

theorem byteAt_eq_iff {f : List Byte} {k : Nat} {b : Byte} (h : k < f.length) : byteAt f k = b ↔ f[k]? = some b := by
  rw [byteAt, List.getD_eq_getElem _ _ h, List.getElem?_eq_getElem h, Option.some_inj]

theorem byteAt_toList {n k : Nat} (v : Vector Byte n) (h : k < n) : byteAt v.toList k = v[k] := by
  rw [byteAt_eq_iff (by rwa [Vector.length_toList]), Vector.getElem?_toList, Vector.getElem?_eq_getElem h]

/-- The walk over the positions of a definition compares those whose flag is set. -/
theorem PatternDef.hits_iff {d : PatternDef} {f : List Byte} : d.hits f = true ↔ d.offset + d.length ≤ f.length
    ∧ ∀ i, i < d.length → d.mask.getLsbD i = true → byteAt f (d.offset + i) = byteAt d.value.toList i := by
  simp only [PatternDef.hits, Bool.and_eq_true, decide_eq_true_eq, List.all_eq_true, List.mem_range, Bool.or_eq_true,
    Bool.not_eq_true', beq_iff_eq, ← Bool.not_eq_true, imp_iff_not_or]

/-- Settles O52: within the frame and the 32 positions, both bytes compared are there. -/
theorem patternMatchesFrame : Obligations.PatternMatchesFrame := by
  intro d f short
  refine PatternDef.hits_iff.trans (and_congr_right fun fits => ?_)
  have position : ∀ i : Fin 32, i.val < d.length →
      (byteAt f (d.offset + i.val) = byteAt d.value.toList i.val ↔ f[d.offset + i.val]? = some d.value[i]) := fun i hi => by
    rw [byteAt_toList d.value i.isLt, byteAt_eq_iff (by omega)]
    rfl
  constructor
  · exact fun h i hi flag => (position i hi).mp (h i.val hi flag)
  · exact fun h i hi flag => (position ⟨i, by omega⟩ hi).mpr (h ⟨i, by omega⟩ hi flag)

/-! ### WRITE_PATTERN and CLEAR_PATTERN (R120, R121, R192, R193) -/

theorem getLsbD_keptMask (length : Nat) (mask : BitVec 32) (k : Nat) :
    (keptMask length mask).getLsbD k = (decide (k < length) && mask.getLsbD k) := by
  rw [keptMask, BitVec.getLsbD_and, BitVec.getLsbD_ofNat, Nat.testBit_two_pow_sub_one]
  by_cases wide : k < 32
  · simp [wide, Bool.and_comm]
  · simp [BitVec.getLsbD_of_ge mask k (Nat.le_of_not_lt wide)]

/-- The mask keeps something exactly when a flag among the first `length` positions is set (R120). -/
theorem keptMask_ne_zero_iff {length : Nat} {mask : BitVec 32} :
    keptMask length mask ≠ 0 ↔ ∃ k, k < length ∧ mask.getLsbD k = true := by
  constructor
  · intro h
    obtain ⟨k, hk, flag⟩ := exists_flag_of_keptMask h
    rw [getLsbD_keptMask, Bool.and_eq_true] at flag
    exact ⟨k, hk, flag.2⟩
  · rintro ⟨k, hk, flag⟩ zero
    have kept : (keptMask length mask).getLsbD k = true := by rw [getLsbD_keptMask, flag, decide_eq_true hk, Bool.and_self]
    rw [zero] at kept
    simp at kept

theorem patternInRange_iff {offset length : Nat} {mask : BitVec 32} : patternInRange offset length mask = true ↔
    offset ≤ 191 ∧ 1 ≤ length ∧ length ≤ 32 ∧ ∃ k, k < length ∧ mask.getLsbD k = true := by
  simp only [patternInRange, Bool.and_eq_true, decide_eq_true_eq, bne_iff_ne, keptMask_ne_zero_iff, and_assoc]

/-- The byte `k` of a stored definition: beyond the length it is 00h (R120). -/
theorem storedDef_value (offset length : Nat) (mask : BitVec 32) (value : Vector Byte 32) (k : Fin 32) :
    (storedDef offset length mask value).value[k] = if k.val < length then value[k] else 0 :=
  getElem_tabulate 32 _ k.val k.isLt

/-- An unused pattern with another definition (R121, R192). -/
theorem define_unused {x : Pattern} (unused : x.refs = 0) (d : Option PatternDef) :
    { x with definition := d } = { refs := 0, definition := d } := by
  rw [unused]

/-- The body of WRITE_PATTERN on a pattern number that is in range (R192). -/
theorem writePatternBody_eq {pattern : Byte} {p : Fin 32} (offset length : Byte) (mask : BitVec 32) (value : Vector Byte 32) (u : State)
    (hp : p.val = pattern.toNat) : writePatternBody pattern offset length mask value u =
      if patternInRange offset.toNat length.toNat mask = false then .refuse .badParameter
      else if (u.pattern p).refs ≠ 0 then .refuse .inUse
      else .done [] (u.setPattern p
        { u.pattern p with definition := some (storedDef offset.toNat length.toNat mask value) }) := by
  rw [writePatternBody, patternArg_eq_some hp]

/-- The body of CLEAR_PATTERN on a pattern number that is in range (R193). -/
theorem clearPatternBody_eq {pattern : Byte} {p : Fin 32} (u : State) (hp : p.val = pattern.toNat) : clearPatternBody pattern u =
      if (u.pattern p).refs ≠ 0 then .refuse .inUse else .done [] (u.setPattern p { u.pattern p with definition := none }) := by
  rw [clearPatternBody, patternArg_eq_some hp]

/-- A pattern number or a definition out of range (R169, R192). -/
theorem writePatternBody_refuses {pattern offset length : Byte} {mask : BitVec 32} (value : Vector Byte 32) (u : State)
    (h : ¬ (pattern.toNat < 32 ∧ patternInRange offset.toNat length.toNat mask = true)) :
    writePatternBody pattern offset length mask value u = .refuse .badParameter := by
  by_cases number : pattern.toNat < 32
  · exact (writePatternBody_eq (p := ⟨_, number⟩) offset length mask value u rfl).trans
      (if_pos (eq_false_of_ne_true fun range => h ⟨number, range⟩))
  · rw [writePatternBody, patternArg_eq_none (Nat.le_of_not_lt number)]

/-- Settles O31: the range of the definition is read from its kept flags; then the reference count decides. -/
theorem patternEdits : Obligations.PatternEdits := by
  intro s ready
  refine ⟨fun pattern offset length mask value => ?_, fun pattern => ?_⟩
  · refine ⟨fun bad => go_refused ready (writePatternBody_refuses value _ ?_), fun p hp good => ?_⟩
    · rwa [patternInRange_iff]
    have inRange : ¬ patternInRange offset.toNat length.toNat mask = false := by
      rw [patternInRange_iff.mpr good.2]
      exact Bool.true_eq_false.mp
    have body := fun u => (writePatternBody_eq offset length mask value u hp).trans (if_neg inRange)
    refine ⟨fun used => go_refused ready ((body _).trans (if_pos used)), fun unused =>
      ⟨storedDef offset.toNat length.toNat mask value, ?_, rfl, rfl, fun k => getLsbD_keptMask _ mask k, storedDef_value _ _ mask value⟩⟩
    rw [← define_unused unused]
    exact go_success ready ((body _).trans (if_neg (not_not.mpr unused))) ready.noTake
  · refine ⟨fun bad => go_refused ready ?_, fun p hp => ?_⟩
    · rw [clearPatternBody, patternArg_eq_none bad]
    have body := fun u => clearPatternBody_eq u hp
    refine ⟨fun used => go_refused ready ((body _).trans (if_pos used)), fun unused => ?_⟩
    rw [← define_unused unused]
    exact go_success ready ((body _).trans (if_neg (not_not.mpr unused))) ready.noTake

/-! ### A frame UNICAST TO SLOT (R125 to R128) -/

/-- A pattern matches a frame when it is DEFINED and its definition does (R124). -/
theorem patternHits_iff {s : State} {f : List Byte} {p : Fin 32} :
    s.patternHits f p = true ↔ ∃ d, (s.pattern p).definition = some d ∧ d.hits f = true := Option.any_eq_true ..

theorem walk_none {s : State} {n : Fin 16} {f : List Byte} (h : ∀ p ∈ (s.slot n).patterns, ¬ s.patternHits f p = true) :
    s.walk n f = none := List.find?_eq_none.mpr h

/-- The walk gives the first pattern of the list that matches (R125). -/
theorem walk_first {s : State} {n : Fin 16} {f : List Byte} {p : Fin 32} {before after : List (Fin 32)}
    (list : (s.slot n).patterns = before ++ p :: after) (earlier : ∀ q ∈ before, ¬ s.patternHits f q = true)
    (hit : s.patternHits f p = true) : s.walk n f = some p :=
  List.find?_eq_some_iff_append.mpr ⟨hit, before, after, list, fun q hq => by simpa using earlier q hq⟩

theorem matchFrame_unmatched {s : State} {n : Fin 16} {f : List Byte} (h : s.walk n f = none) : s.matchFrame n f = s := by
  rw [State.matchFrame, h]
  cases (s.slot n).state <;> rfl

/-- In the other states the pattern store does nothing (R92, R128). -/
theorem matchFrame_elsewhere {s : State} {n : Fin 16} (f : List Byte)
    (h : (s.slot n).state ≠ .proxying ∧ (s.slot n).state ≠ .waking) : s.matchFrame n f = s := by
  obtain ⟨proxying, waking⟩ := h
  unfold State.matchFrame
  split
  · next state => exact absurd state proxying
  · next state => exact absurd state waking
  all_goals rfl

/-- In PROXYING a match is counted and starts the wake with the pattern as its cause (R39, R126). -/
theorem matchFrame_proxying {s : State} {n : Fin 16} {f : List Byte} {p : Fin 32} (state : (s.slot n).state = .proxying)
    (h : s.walk n f = some p) : s.matchFrame n f =
      s.setSlot n (woken s.now (.pattern p) ((s.slot n).count SlotCounters.countMatch)) := by
  have counted : ((s.countSlot n SlotCounters.countMatch).slot n).state = .proxying := by simp [Slot.count, state]
  simp only [State.matchFrame, state, h]
  rw [State.wakeTrigger, if_pos counted, State.startWake, State.countSlot, modSlot_modSlot]
  rfl

/-- In WAKING a match is counted late, and gives no trigger (R127). -/
theorem matchFrame_waking {s : State} {n : Fin 16} {f : List Byte} {p : Fin 32} (state : (s.slot n).state = .waking)
    (h : s.walk n f = some p) : s.matchFrame n f = s.setSlot n ((s.slot n).count SlotCounters.countLate) := by
  simp only [State.matchFrame, state, h]
  rfl

theorem takeFrame_unicast {bytes : List Byte} {fcsGood : Bool} {s : State} {f : List Byte} {n : Fin 16}
    (h : s.accept bytes fcsGood = .taken f) (unicast : s.classify f = .unicast n) :
    takeFrame bytes fcsGood s = (s.count DeviceCounters.countTaken).matchFrame n f := by
  have unicast : (s.count DeviceCounters.countTaken).classify f = .unicast n := unicast
  rw [takeFrame, h]
  simp only [State.dispatchFrame, unicast]

/-- Settles O43: the walk over the slot's list, then the slot state; the pattern store gives the transmitter nothing to take. -/
theorem matchWakesOrCountsLate : Obligations.MatchWakesOrCountsLate := by
  intro bytes fcsGood s f n h accepted classified u matching
  have hits : ∀ p, u.patternHits f p = true ↔ matching p := fun p => patternHits_iff
  have intake : takeFrame bytes fcsGood s = u.matchFrame n f := takeFrame_unicast accepted classified
  refine ⟨fun idle => exec_frame h (intake.trans ?_) rfl, fun p before after list earlier hit => ?_⟩
  · rcases idle with elsewhere | unmatched
    · exact matchFrame_elsewhere f elsewhere
    · exact matchFrame_unmatched (walk_none fun p hp => unmatched p hp ∘ (hits p).mp)
  · have walk : u.walk n f = some p := walk_first list (fun q hq => earlier q hq ∘ (hits q).mp) ((hits p).mpr hit)
    exact ⟨fun proxying => exec_frame h (intake.trans (matchFrame_proxying proxying walk)) rfl,
      fun waking => exec_frame h (intake.trans (matchFrame_waking waking walk)) rfl⟩

end Sys2Proof.Machine

namespace Sys2Proof.Machine

/-! ## The attention line, RESET_N and the window -/

/-! ### The attention line (R146) -/

theorem and_ne_zero_iff {w : Nat} {x y : BitVec w} : x &&& y ≠ 0 ↔ ∃ i, x.getLsbD i = true ∧ y.getLsbD i = true := by
  simp only [← Bool.and_eq_true, ← BitVec.getLsbD_and]
  constructor
  · intro nonzero
    by_contra none
    push Not at none
    exact nonzero (BitVec.eq_of_getLsbD_eq fun i _ => by
      rw [eq_false_of_ne_true (none i), BitVec.ofNat_eq_ofNat, BitVec.getLsbD_zero])
  · rintro ⟨i, flag⟩ zero
    rw [zero, BitVec.ofNat_eq_ofNat, BitVec.getLsbD_zero] at flag
    contradiction

/-- An enabled kind is pending when some set and its mask have a flag in the same place (R146). -/
theorem enabledPending_iff {s : State} : s.enabledPending = true ↔
    (∃ n i, (s.slot n).attention.getLsbD i = true ∧ s.settings.slotMask.getLsbD i = true)
      ∨ ∃ i, s.deviceAttention.getLsbD i = true ∧ s.settings.deviceMask.getLsbD i = true := by
  simp only [State.enabledPending, Bool.or_eq_true, List.any_eq_true, List.mem_finRange, true_and, bne_iff_ne, and_ne_zero_iff]

theorem isComplete_iff {s : State} : s.isComplete = true ↔ s.mailbox.state = .complete := beq_iff_eq

theorem attnAsserted_iff {s : State} : attnAsserted s = true ↔ s.resetAsserted = false ∧
    (s.enabledPending = true ∨ (s.mailbox.state = .complete ∧ s.settings.completionEnable = true)) := by
  rw [attnAsserted, Bool.and_eq_true, Bool.not_eq_true', Bool.or_eq_true, Bool.and_eq_true, isComplete_iff]

/-- Settles O14: the line is read from the sets, the masks and the mailbox, flag by flag. -/
theorem attentionLine : Obligations.AttentionLine := by
  intro s
  rw [attnAsserted_iff, enabledPending_iff, or_assoc]

/-! ### RESET_N asserted (R146, R157) -/

/-- While RESET_N is asserted every event is ignored (log 9). -/
theorem exec_ignored {i : Instr} {s : State} (h : s.resetAsserted = true) (reset : i ≠ .resetNAsserted)
    (power : ∀ awake link csLow, i ≠ .powerOn awake link csLow) : exec i s = .next s := by
  obtain ⟨f, -, isEvent⟩ := exec_event power reset
  rw [isEvent, event_reset f s h]

theorem attnAsserted_inReset {s : State} (h : s.resetAsserted = true) : attnAsserted s = false := by
  rw [attnAsserted, h, Bool.not_true, Bool.false_and]

/-- Settles O5: the part is left blank, and every other command but POWER_ON is an event. -/
theorem resetAssertedHoldsPart : Obligations.ResetAssertedHoldsPart := by
  refine ⟨fun s => ?_, fun i s h reset power => exec_ignored h reset power⟩
  have blank : Blank s { State.reset with
      lines := s.lines, link := s.link, port := { phase := .ignoring }, resetAsserted := true, pending := s.pending } :=
    blank_of_reset rfl rfl rfl rfl rfl rfl rfl
  exact ⟨_, rfl, rfl, attnAsserted_inReset rfl, rfl, rfl, fun n => congrArg Slot.attention (blank.slot n), rfl,
    rfl, rfl, rfl, rfl, rfl, rfl⟩

/-! ### The bytes of the window (R144, R155, R195) -/

/-- Powers of two added up for the places where `p` fails are the number with those bits; `weight` scales them. -/
theorem foldl_flags {n : Nat} (p : Fin n → Prop) [DecidablePred p] (weight start : Nat) :
    (List.finRange n).foldl (fun acc i => if p i then acc else acc + weight * 2 ^ i.val) start
      = start + weight * Nat.ofBits fun i => decide ¬ p i := by
  induction n generalizing weight start with
  | zero => simp
  | succ n ih =>
    have shift : ∀ i : Nat, weight * 2 ^ (i + 1) = 2 * weight * 2 ^ i := fun i => by ring
    have head : (if p 0 then start else start + weight * 2 ^ (0 : Fin (n + 1)).val) = start + weight * (decide ¬ p 0).toNat := by
      by_cases h : p 0 <;> simp [h]
    simp only [List.finRange_succ, List.foldl_cons, List.foldl_map, Fin.val_succ, shift]
    rw [ih (fun i => p i.succ), Nat.ofBits_succ, head, Function.comp_def]
    ring

/-- The slot summary has the bit of each slot whose attention set is not empty (R144). -/
theorem slotSummary_eq (s : State) : s.slotSummary = Nat.ofBits fun n => decide ((s.slot n).attention ≠ 0) := by
  simpa only [State.slotSummary, Nat.one_mul, Nat.zero_add] using foldl_flags (fun n => (s.slot n).attention = 0) 1 0

theorem testBit_slotSummary (s : State) (n : Fin 16) : s.slotSummary.testBit n.val = decide ((s.slot n).attention ≠ 0) := by
  rw [slotSummary_eq, Nat.testBit_ofBits_lt _ _ n.isLt]

theorem toBytesLE_two (x : Nat) : toBytesLE 2 x = [BitVec.ofNat 8 x, BitVec.ofNat 8 (x / 256)] := by
  simp [toBytesLE, toBytesBE]

/-- The link flag is bit 0 and the ATTN flag bit 1 of the flags byte (R195). -/
theorem getLsbD_flagsByte (s : State) (i : Nat) :
    s.flagsByte.getLsbD i = (decide (i = 0) && s.link || decide (i = 1) && attnAsserted s) := by
  have zero : (0x00#8).getLsbD i = false := BitVec.getLsbD_zero
  have first : (0x01#8).getLsbD i = decide (i = 0) := by simp
  have second : (0x02#8).getLsbD i = decide (i = 1) := by
    rw [show 0x02#8 = BitVec.twoPow 8 1 from rfl, BitVec.getLsbD_twoPow]
    simp [eq_comm]
  rw [State.flagsByte, BitVec.getLsbD_or, apply_ite (BitVec.getLsbD · i), apply_ite (BitVec.getLsbD · i), zero, first, second]
  cases s.link <;> cases attnAsserted s <;> simp

/-- The window up to 08h is the nine status bytes (R195). -/
theorem windowRead_status (s : State) {o : Nat} (h : o ≤ 0x08) : s.windowRead o = byteAt
    [Config.deviceCode, Config.revision, s.mailbox.state.code, s.mailbox.result, 0x00#8, s.flagsByte,
      BitVec.ofNat 8 s.slotSummary, BitVec.ofNat 8 (s.slotSummary / 256), s.deviceAttention] o := by
  rw [State.windowRead, if_pos h, State.statusBytes, toBytesLE_two]
  rfl

theorem windowRead_command (s : State) (k : Fin 64) : s.windowRead (0x10 + k.val) = s.mailbox.command[k] := by
  rw [State.windowRead, if_neg (by omega), if_pos (by omega), Nat.add_sub_cancel_left, byteAt_toList _ k.isLt]
  rfl

theorem windowRead_response (s : State) (k : Fin 80) : s.windowRead (0x50 + k.val) = s.mailbox.response[k] := by
  rw [State.windowRead, if_neg (by omega), if_neg (by omega), if_pos (by omega), Nat.add_sub_cancel_left, byteAt_toList _ k.isLt]
  rfl

theorem windowRead_unmapped (s : State) {o : Nat} (h : 0x09 ≤ o ∧ o ≤ 0x0F ∨ 0xA0 ≤ o) : s.windowRead o = 0x00#8 := by
  rw [State.windowRead, if_neg (by omega), if_neg (by omega), if_neg (by omega)]

/-- The two summary bytes together hold the bit of each slot (R144, R195). -/
theorem windowRead_summary (s : State) (n : Fin 16) :
    (if n.val < 8 then (s.windowRead 0x06).getLsbD n.val else (s.windowRead 0x07).getLsbD (n.val - 8))
      = decide ((s.slot n).attention ≠ 0) := by
  have low : s.windowRead 0x06 = BitVec.ofNat 8 s.slotSummary := windowRead_status s (by omega)
  have high : s.windowRead 0x07 = BitVec.ofNat 8 (s.slotSummary / 2 ^ 8) := windowRead_status s (by omega)
  rw [low, high, ← testBit_slotSummary, BitVec.getLsbD_ofNat, BitVec.getLsbD_ofNat, Nat.testBit_div_two_pow]
  split
  · next h => simp [h]
  · next h => simp [Nat.sub_add_cancel (Nat.le_of_not_lt h), show n.val - 8 < 8 by omega]

/-- Settles O12: the status bytes place by place, the two areas, and 00h elsewhere. -/
theorem windowReads : Obligations.WindowReads := by
  intro s
  have status := fun o (h : o ≤ 0x08) => windowRead_status s h
  have flags : s.windowRead 0x05 = s.flagsByte := status _ (by omega)
  refine ⟨status _ (by omega), status _ (by omega), status _ (by omega), ?_, status _ (by omega), ?_, ?_, fun i hi => ?_,
    windowRead_summary s, status _ (by omega), fun o h9 hF => windowRead_unmapped s (.inl ⟨h9, hF⟩), windowRead_command s,
    windowRead_response s, fun o h => windowRead_unmapped s (.inr h)⟩
  · rw [status _ (by omega)]
    cases s.mailbox.state <;> rfl
  · rw [flags, getLsbD_flagsByte]
    simp
  · rw [flags, getLsbD_flagsByte]
    simp
  · rw [flags, getLsbD_flagsByte, decide_eq_false (by omega), decide_eq_false (by omega), Bool.false_and, Bool.false_and, Bool.or_false]

end Sys2Proof.Machine

namespace Sys2Proof.Machine

/-! ## The mailbox and the management port -/

/-! ### Bytes placed in an area (R159, R165, R201) -/

theorem byteAt_append_left {l : List Byte} (m : List Byte) {k : Nat} (h : k < l.length) : byteAt (l ++ m) k = byteAt l k :=
  List.getD_append l m _ k h

theorem byteAt_append_right (l m : List Byte) (k : Nat) : byteAt (l ++ m) (l.length + k) = byteAt m k := by
  rw [byteAt, List.getD_append_right l m _ _ (Nat.le_add_right _ _), Nat.add_sub_cancel_left, byteAt]

theorem byteAt_beyond {l : List Byte} {k : Nat} (h : l.length ≤ k) : byteAt l k = 0 := List.getD_eq_default l _ h

/-! ### Completions (R165, R202) -/

/-- The response area holds the header and the data, and 00h after them (R165, R202). -/
theorem byteAt_responseArea (code : Byte) (r : Result) {data : List Byte} (fits : data.length ≤ 77) (k : Nat) :
    byteAt (responseArea code r data).toList k = byteAt ([code, r.code, countByte data.length] ++ data) k := by
  by_cases inside : k < 80
  · rw [byteAt_toList _ inside]
    exact getElem_tabulate 80 _ k inside
  · have beyond : ([code, r.code, countByte data.length] ++ data).length ≤ k := by
      rw [List.length_append, List.length_cons, List.length_cons, List.length_singleton]
      omega
    rw [byteAt_beyond (by rw [Vector.length_toList]; omega), byteAt_beyond beyond]

/-- Settles O7: the mailbox alone is written, and the response area is read byte by byte. -/
theorem completionWritesOutcome : Obligations.CompletionWritesOutcome := by
  intro s r data fits t
  have area : ∀ k, byteAt t.mailbox.response.toList (3 + k) = byteAt data k := fun k =>
    (byteAt_responseArea s.mailbox.command[0] r fits (3 + k)).trans (byteAt_append_right _ _ k)
  have header : ∀ k (h : k < 80), t.mailbox.response[k]
      = byteAt ([s.mailbox.command[0], r.code, countByte data.length] ++ data) k := fun k h => getElem_tabulate 80 _ k h
  refine ⟨rfl, rfl, rfl, rfl, header 0 _, header 1 _, ?_, fun k _ => area k, fun k beyond => (area k).trans (byteAt_beyond beyond)⟩
  rw [header 2]
  exact BitVec.toNat_ofNat data.length 8 |>.trans (Nat.mod_eq_of_lt (by omega))

/-! ### The command area (R159, R196, R200, R201) -/

/-- A number of `n` bytes is read back from where its bytes stand, most significant first (R196). -/
theorem read_mostFirst {w n : Nat} (a : BitVec w) (width : 2 ^ w = 256 ^ n) (rest : List Byte) :
    BitVec.ofNat w (ofBytesBE ((toBytesBE n a.toNat ++ rest).take n)) = a := by
  rw [List.take_left' (length_toBytesBE n _), read_number (width ▸ a.isLt), BitVec.ofNat_toNat, BitVec.setWidth_eq]

/-- A number of `n` bytes is read back from where its bytes stand, least significant first (R196). -/
theorem read_leastFirst {w n : Nat} (a : BitVec w) (width : 2 ^ w = 256 ^ n) (rest : List Byte) :
    BitVec.ofNat w (ofBytesLE ((toBytesLE n a.toNat ++ rest).take n)) = a := by
  have length : (toBytesLE n a.toNat).length = n := by rw [toBytesLE, List.length_reverse, length_toBytesBE]
  rw [List.take_left' length, ofBytesLE, toBytesLE, List.reverse_reverse, read_number (width ▸ a.isLt), BitVec.ofNat_toNat,
    BitVec.setWidth_eq]

/-- A table of bytes is read back from where they stand. -/
theorem read_table {n : Nat} (v : Vector Byte n) (before rest : List Byte) :
    tabulate n (fun i => byteAt (before ++ v.toList ++ rest) (before.length + i.val)) = v := by
  refine Vector.ext fun k hk => ?_
  rw [getElem_tabulate, List.append_assoc, byteAt_append_right, byteAt_append_left _ (by rwa [Vector.length_toList]), byteAt_toList v hk]

/-- A code that is not a command spells UNKNOWN_COMMAND, whatever follows it (R168). -/
theorem decodeCommand_unknown {area : List Byte} (unknown : isCommandCode (byteAt area 0) = false) :
    decodeCommand area = .unknownCommand (byteAt area 0) := by
  unfold decodeCommand
  dsimp only
  split
  case h_24 => rfl
  all_goals
    next code => simp [isCommandCode, code] at unknown

/-- The bytes that spell a command, its code first (R201). -/
def commandBytes (i : Instr) : List Byte := (commandCode i).toList ++ commandArgs i

/-- Decoding undoes spelling, whatever bytes follow the last argument (R159, R200, R201). -/
theorem decodeCommand_commandBytes {i : Instr} (wellFormed : i.wellFormed = true) (code : commandCode i ≠ none) (rest : List Byte) :
    decodeCommand (commandBytes i ++ rest) = i := by
  cases i
  case unknownCommand c => exact decodeCommand_unknown (area := c :: rest) (Bool.not_eq_true' _ |>.mp wellFormed)
  case setStation a => exact congrArg Instr.setStation (read_mostFirst a rfl rest)
  case setSegment t => exact congrArg Instr.setSegment (read_leastFirst t rfl rest)
  case setTiming c i w => exact congrArg (Instr.setTiming c · w) (read_leastFirst i rfl ([w] ++ rest))
  case openSlot n a m => exact congrArg (Instr.openSlot n · m) (read_mostFirst a rfl ([m] ++ rest))
  case setSlotPolicy n l a p t r => exact congrArg (Instr.setSlotPolicy n l a p · r) (read_leastFirst t rfl ([r] ++ rest))
  case addAddress n f a => exact congrArg (Instr.addAddress n f) (read_mostFirst a rfl rest)
  case lookup f a => exact congrArg (Instr.lookup f) (read_mostFirst a rfl rest)
  case writePattern p o l m v =>
    exact congrArg₂ (Instr.writePattern p o l) (read_leastFirst m rfl (v.toList ++ rest))
      (read_table v ([0x20#8, p, o, l] ++ toBytesLE 4 m.toNat) rest)
  case setAttentionMask | readDevice | deviceReset | removeAddress | attachPattern | detachPattern | arm | disarm | wake | release
    | readSlot | readEntry | readAttention | clearPattern | readPattern => rfl
  all_goals exact absurd rfl code

theorem length_commandBytes (i : Instr) : (commandBytes i).length ≤ 64 := by
  cases i <;> simp [commandBytes, commandCode, commandArgs, linkBytes, toBytesLE]

/-- The code takes one byte before the arguments (R201). -/
theorem length_commandBytes_of_code {i : Instr} (code : commandCode i ≠ none) : (commandBytes i).length = (commandArgs i).length + 1 := by
  obtain ⟨c, hc⟩ := Option.ne_none_iff_exists'.mp code
  rw [commandBytes, hc]
  rfl

/-- The bytes of a placed command, each in its place; the bytes after them stay (R164, R201). -/
theorem command_placeCommand (s : State) (i : Instr) {k : Nat} (h : k < 64) :
    (s.placeCommand i).mailbox.command[k] = (commandBytes i).getD k s.mailbox.command[k] := getElem_tabulate 64 _ k h

/-- The command area after a command was placed: its bytes, and then what stood there (R201). -/
theorem commandArea_placeCommand (s : State) (i : Instr) : (s.placeCommand i).mailbox.command.toList
    = commandBytes i ++ s.mailbox.command.toList.drop (commandBytes i).length := by
  have short := length_commandBytes i
  refine List.ext_getElem (by simp; omega) fun k hk _ => ?_
  rw [Vector.length_toList] at hk
  rw [Vector.getElem_toList, command_placeCommand s i hk, List.getElem_append]
  split
  · next spelt => exact List.getD_eq_getElem _ _ spelt
  · next after =>
    rw [List.getD_eq_default _ _ (Nat.le_of_not_lt after), List.getElem_drop, Vector.getElem_toList]
    congr 1
    omega

/-- A GO in IDLE is the command that the area spells (R159). -/
theorem controlWriteCommand_go {s : State} (idle : s.mailbox.state = .idle) :
    s.controlWriteCommand 0x01#8 = decodeCommand s.mailbox.command.toList := by
  rw [State.controlWriteCommand, if_pos rfl, idle]

/-- Settles O6: the area holds the command's bytes first, and decoding them undoes their spelling. -/
theorem commandAreaSpellsCommand : Obligations.CommandAreaSpellsCommand := by
  intro i s wellFormed code
  have spells : decodeCommand (s.placeCommand i).mailbox.command.toList = i := by
    rw [commandArea_placeCommand]
    exact decodeCommand_commandBytes wellFormed code _
  refine ⟨spells, fun idle => (controlWriteCommand_go (s := s.placeCommand i) idle).trans spells, fun k after => ?_⟩
  refine (command_placeCommand s i k.isLt).trans (List.getD_eq_default _ _ ?_)
  rw [length_commandBytes_of_code code]
  omega

/-! ### Control writes and data bytes (R155, R159 to R164) -/

/-- An event on a settled part that leaves nothing more to take leaves what it makes of the records (R103). -/
theorem event_next {f : State → State} {s t : State} (h : Settled s) (act : f s = t) (rest : t.canTake = s.canTake) :
    event f s = .next t := by
  subst act
  exact event_settled f s h.1 (rest.trans h.2)

/-- An event that the mailbox refuses raises MAILBOX_MISUSE and changes nothing else (R142, R163). -/
theorem event_misused {f : State → State} {s : State} (h : Settled s) (refused : f s = s.misuse) : event f s = .next (misused s) :=
  event_next h (t := misused s) refused rfl

theorem commandAreaByte_idle {s : State} {o : Byte} (v : Byte) (area : inCommandArea o = true) (idle : s.mailbox.state = .idle) :
    commandAreaByte o v s = s.storeCommandByte o v := by
  rw [commandAreaByte, if_pos area, idle]

theorem commandAreaByte_busy {s : State} {o : Byte} (v : Byte) (area : inCommandArea o = true) (busy : s.mailbox.state ≠ .idle) :
    commandAreaByte o v s = s.misuse := by
  rw [commandAreaByte, if_pos area]
  split
  · next idle => exact absurd idle busy
  all_goals rfl

theorem acknowledge_complete {s : State} (complete : s.mailbox.state = .complete) :
    acknowledge s = { s with mailbox := { s.mailbox with state := .idle } } := by
  rw [acknowledge, complete]

theorem acknowledge_refused {s : State} (other : s.mailbox.state ≠ .complete) : acknowledge s = s.misuse := by
  unfold acknowledge
  split
  · next complete => exact absurd complete other
  all_goals rfl

theorem abortRelease_executing {s : State} {r : Release} (executing : s.mailbox.state = .executing r) :
    abortRelease s = s.finishRelease r.slot .aborted := by
  rw [abortRelease, executing]

theorem abortRelease_refused {s : State} (other : ∀ r, s.mailbox.state ≠ .executing r) : abortRelease s = s.misuse := by
  unfold abortRelease
  split
  · next r executing => exact absurd executing (other r)
  all_goals rfl

theorem refuseGo_busy {s : State} (busy : s.mailbox.state ≠ .idle) : refuseGo s = s.misuse := by
  unfold refuseGo
  split
  · next idle => exact absurd idle busy
  all_goals rfl

theorem isControlValue_eq_false {v : Byte} (go : v ≠ 0x01#8) (ack : v ≠ 0x02#8) (abort : v ≠ 0x04#8) : isControlValue v = false := by
  simp [isControlValue, go, ack, abort]

/-- A control write of any other value is invalid (R163). -/
theorem controlWriteCommand_other (s : State) {v : Byte} (go : v ≠ 0x01#8) (ack : v ≠ 0x02#8) (abort : v ≠ 0x04#8) :
    s.controlWriteCommand v = .invalidControlWrite v := by
  rw [State.controlWriteCommand, if_neg go, if_neg ack, if_neg abort]

theorem controlWriteCommand_busy {s : State} (busy : s.mailbox.state ≠ .idle) : s.controlWriteCommand 0x01#8 = .goRefused := by
  rw [State.controlWriteCommand, if_pos rfl]
  split
  · next idle => exact absurd idle busy
  all_goals rfl

theorem windowWriteCommand_area (s : State) {o : Byte} (v : Byte) (area : inCommandArea o = true) :
    s.windowWriteCommand o v = .commandAreaWrite o v := by
  have data : o ≠ controlOffset := fun control => by
    rw [control] at area
    cases area
  rw [State.windowWriteCommand, if_neg data, if_pos area]

theorem windowWriteCommand_elsewhere (s : State) {o : Byte} (v : Byte) (outside : inCommandArea o = false) (other : o ≠ controlOffset) :
    s.windowWriteCommand o v = .windowWriteIgnored o v := by
  rw [State.windowWriteCommand, if_neg other, if_neg (by simp [outside])]

/-- Settles O9: the mailbox state decides; a mailbox in IDLE is not COMPLETE, so ATTN_N follows the sets. -/
theorem ackReturnsMailboxToIdle : Obligations.AckReturnsMailboxToIdle := by
  intro s h
  refine ⟨fun complete => ⟨event_next h (acknowledge_complete complete) rfl, ?_, fun o v area => ?_⟩,
    fun other => event_misused h (acknowledge_refused other)⟩
  · have running : s.resetAsserted = false := h.1
    simp only [attnAsserted, State.isComplete, running]
    exact (Bool.true_and _).trans (Bool.or_false _)
  · exact event_next (s := { s with mailbox := { s.mailbox with state := .idle } }) h (commandAreaByte_idle v area rfl) rfl

/-- A code that is not a command is the GO of a command that is always refused (R168). -/
theorem unknownGo_unknown {c : Byte} (unknown : isCommandCode c = false) :
    unknownGo c = runCommand (.unknownCommand c) fun _ => .refuse .unknownCommand :=
  funext fun _ => if_neg (by simp [unknown])

/-- A command row is the GO of the command, whatever its operands (R159; log 2). -/
theorem exec_command {i : Instr} (wellFormed : i.wellFormed = true) (code : commandCode i ≠ none) :
    ∃ body, exec i = event (runCommand i body) := by
  cases i
  case unknownCommand c => exact ⟨_, congrArg event (unknownGo_unknown ((Bool.not_eq_true' _).mp wellFormed))⟩
  case setStation | setSegment | setTiming | setAttentionMask | readDevice | deviceReset | openSlot | setSlotPolicy | addAddress
    | removeAddress | attachPattern | detachPattern | arm | disarm | wake | release | readSlot | readEntry | lookup | readAttention
    | writePattern | clearPattern | readPattern => exact ⟨_, rfl⟩
  all_goals exact absurd rfl code

/-- Settles O8: outside IDLE a command row is a refused GO; an unknown code in IDLE is refused by its body. -/
theorem goWithoutEffect : Obligations.GoWithoutEffect := by
  refine ⟨fun i s h busy wellFormed go => ?_, fun c s ready unknown => ?_⟩
  · rcases go with code | rfl
    · obtain ⟨body, isCommand⟩ := exec_command wellFormed code
      rw [isCommand]
      exact event_misused h (runCommand_busy i body s busy)
    · exact event_misused h (refuseGo_busy busy)
  · exact (congrFun (congrArg event (unknownGo_unknown unknown)) s).trans (go_refused ready rfl)

/-- Settles O10: the mailbox state decides; the releasing slot becomes VACANT, and the mailbox completes. -/
theorem abortAndMisuse : Obligations.AbortAndMisuse := by
  refine ⟨fun s h => ⟨fun other => event_misused h (abortRelease_refused other), fun v go ack abort =>
    ⟨event_misused h ?_, controlWriteCommand_other s go ack abort⟩⟩, fun s r h records executing => ?_⟩
  · rw [invalidControl, isControlValue_eq_false go ack abort]
    rfl
  · obtain ⟨vacated, kept⟩ := becomeVacant_vacated records r.slot
    exact ⟨_, event_next h (abortRelease_executing executing) rfl, vacated, kept, rfl, rfl⟩

/-- Settles O11: the offset decides what a written byte is, and the mailbox state what it does. -/
theorem windowWrites : Obligations.WindowWrites := by
  intro s o v h
  refine ⟨fun area => ⟨?_, fun idle => ?_, fun busy => event_misused h (commandAreaByte_busy v area busy)⟩, fun outside other => ⟨?_, ?_⟩,
    rfl, controlWriteCommand_go, fun busy => ⟨controlWriteCommand_busy busy, event_misused h (refuseGo_busy busy)⟩, rfl, rfl,
    controlWriteCommand_other s⟩
  · exact windowWriteCommand_area s v area
  · exact ⟨_, event_next h (commandAreaByte_idle v area idle) rfl, rfl, fun k => getElem_tabulate 64 _ k.val k.isLt⟩
  · exact windowWriteCommand_elsewhere s v outside other
  · exact event_next h (f := id) rfl rfl

/-! ### The pins of the management port (R153 to R157) -/

/-- The bits of a number, most significant first, shifted in one after another. -/
theorem foldl_testBit {x w : Nat} (h : x < 2 ^ w) {n : Nat} (short : n ≤ w) :
    ((List.range n).map fun k => x.testBit (w - 1 - k)).foldl (fun acc b => acc * 2 + b.toNat) 0 = x / 2 ^ (w - n) := by
  induction n with
  | zero => exact (Nat.div_eq_of_lt h).symm
  | succ n ih =>
    obtain ⟨d, rfl⟩ : ∃ d, w = n + d + 1 := ⟨w - n - 1, by omega⟩
    have high : n + d + 1 - n = d + 1 := by omega
    have place : n + d + 1 - 1 - n = d := by omega
    have low : n + d + 1 - (n + 1) = d := by omega
    rw [List.range_succ, List.map_append, List.foldl_append, ih (by omega), high, low]
    simp only [List.map_singleton, List.foldl_cons, List.foldl_nil, place, Nat.toNat_testBit]
    rw [Nat.pow_succ, ← Nat.div_div_eq_div_mul]
    exact Nat.div_add_mod' _ 2

/-- Eight bits of a byte, first bit most significant, make that byte (R153). -/
theorem byteOfBits_getLsbD (b : Byte) : byteOfBits ((List.range 7).map (fun k => b.getLsbD (7 - k)) ++ [b.getLsbD 0]) = b := by
  have value := foldl_testBit b.isLt (Nat.le_refl 8)
  rw [Nat.sub_self, Nat.pow_zero, Nat.div_one] at value
  refine (congrArg (BitVec.ofNat 8) value).trans ?_
  rw [BitVec.ofNat_toNat, BitVec.setWidth_eq]

/-- The status copy gives what the window shows as it is made (R156). -/
theorem byteAt_statusBytes (s : State) {o : Nat} (h : o ≤ 0x08) : byteAt s.statusBytes o = s.windowRead o := (if_pos h).symm

/-- A byte at 00h to 08h is read from the copy, above from the window as it stands (R154, R156). -/
theorem readByte_copy (s : State) (copy : List Byte) {o : Nat} (h : o ≤ 0x08) : s.readByte copy o = byteAt copy o := if_pos h

theorem readByte_window (s : State) (copy : List Byte) {o : Nat} (h : 0x08 < o) : s.readByte copy o = s.windowRead o :=
  if_neg (Nat.not_le.mpr h)

theorem nextOffset_inside {o : Nat} (h : o < 256) : nextOffset o = o + 1 := Nat.min_eq_left h

theorem nextOffset_past {o : Nat} (h : 255 ≤ o) : nextOffset o = 256 := Nat.min_eq_right (by omega)

/-- Byte 2 of a read carries the byte at the start offset, and copies the status bytes if it stands among them (R154, R156). -/
theorem portByte_start {s : State} (phase : s.port.phase = .start true) (b : Byte) : ∃ copy,
    s.portByte b = .next (s.carry (.reading b.toNat copy) (s.windowRead b.toNat))
      ∧ (b.toNat ≤ 8 → ∀ k, k ≤ 8 → byteAt copy k = s.windowRead k) := by
  simp only [State.portByte, phase]
  by_cases status : b.toNat ≤ 8
  · refine ⟨s.statusBytes, ?_, fun _ k hk => byteAt_statusBytes s hk⟩
    rw [if_pos status, readByte_copy s _ status, byteAt_statusBytes s status]
  · refine ⟨[], ?_, fun h => absurd h status⟩
    rw [if_neg status, readByte_window s _ (Nat.lt_of_not_le status)]

/-- A byte of a read moves to the next offset, and carries what is read there (R154). -/
theorem portByte_reading {s : State} {o : Nat} {copy : List Byte} (phase : s.port.phase = .reading o copy) (b : Byte) :
    s.portByte b = .next (s.carry (.reading (nextOffset o) copy) (s.readByte copy (nextOffset o))) := by
  rw [State.portByte, phase]

theorem portByte_writing {s : State} {o : Nat} (phase : s.port.phase = .writing o) (b : Byte) : s.portByte b = s.writeByte o b := by
  rw [State.portByte, phase]

/-- Byte 1 is the direction; any other value has the transaction ignored (R153). -/
theorem portByte_direction {s : State} (phase : s.port.phase = .direction) (b : Byte) : s.portByte b = .next (s.carry
    (if b = 0x80#8 then .start true else if b = 0x00#8 then .start false else .ignoring) 0) := by
  rw [State.portByte, phase]
  dsimp only
  split_ifs <;> rfl

/-- Settles O13: the pins one after another, and then what each byte of a transaction does in each phase. -/
theorem portTransactions : Obligations.PortTransactions := by
  intro s
  refine ⟨fun asserted => ?_, fun running => ?_, fun b => ?_⟩
  · exact ⟨if_pos asserted, if_pos asserted, if_pos (.inl asserted), fun d => if_pos (.inl asserted)⟩
  · have ready : ¬ s.resetAsserted = true := by rw [running]; exact Bool.false_ne_true
    refine ⟨if_neg ready, if_neg ready, fun idle => ⟨if_pos (.inr idle), fun d => if_pos (.inr idle)⟩, fun selected => ?_⟩
    have heard : ¬ (s.resetAsserted = true ∨ s.port.phase = .idle) := not_or.mpr ⟨ready, selected⟩
    refine ⟨if_neg heard, fun partialByte d => ?_, fun b seven => ?_⟩
    · rw [State.sckRises, if_neg heard]
      exact if_pos (by rw [List.length_append, List.length_singleton]; omega)
    · rw [State.sckRises, if_neg heard, seven]
      dsimp only
      rw [byteOfBits_getLsbD]
      exact if_neg (by simp)
  · intro carrying
    refine ⟨fun phase => ?_, fun phase => portByte_direction phase b, fun phase => ?_, fun phase => portByte_start phase b,
      fun o copy phase => ⟨fun status => ?_, fun above inside => ?_, fun past => ?_⟩, fun o phase => ⟨fun inside => ?_, fun past => ?_⟩⟩
    · rw [State.portByte, phase]
      rfl
    · rw [State.portByte, phase]
      rfl
    · rw [portByte_reading phase, nextOffset_inside (by omega), readByte_copy s copy status]
      rfl
    · rw [portByte_reading phase, nextOffset_inside (by omega), readByte_window s copy (by omega)]
      rfl
    · rw [portByte_reading phase, nextOffset_past past, readByte_window s copy (by omega), windowRead_unmapped s (.inr (by omega))]
      rfl
    · rw [portByte_writing phase, State.writeByte, nextOffset_inside inside]
      exact if_pos (by omega)
    · rw [portByte_writing phase, State.writeByte, nextOffset_past (by omega)]
      exact if_neg (by omega)

end Sys2Proof.Machine

namespace Sys2Proof.Machine

/-! ## Masks, the device reset, pattern lists, and the commands of the wake -/

/-! ### Attention masks and sets (R145, R173, R191) -/

/-- A value has a flag beyond the first `k` places exactly when its number needs more than `k` bits. -/
theorem and_not_lowPlaces_ne_zero {w : Nat} (x : BitVec w) (k : Nat) :
    x &&& ~~~(BitVec.ofNat w (2 ^ k - 1)) ≠ 0 ↔ 2 ^ k ≤ x.toNat := by
  rw [and_ne_zero_iff]
  simp only [BitVec.getLsbD_not, BitVec.getLsbD_ofNat, Nat.testBit_two_pow_sub_one, Bool.and_eq_true, Bool.not_eq_true',
    Bool.and_eq_false_iff, decide_eq_true_eq, decide_eq_false_iff_not]
  constructor
  · rintro ⟨i, flag, inside, beyond⟩
    exact (Nat.pow_le_pow_right Nat.two_pos (by omega)).trans (Nat.ge_two_pow_of_testBit flag)
  · intro large
    obtain ⟨i, beyond, flag⟩ := Nat.exists_ge_and_testBit_of_ge_two_pow large
    exact ⟨i, flag, BitVec.lt_of_getLsbD flag, .inr (by omega)⟩

/-- A slot mask has a flag outside the seven places exactly when bit 7 is set (R173, R199). -/
theorem slotMask_outside_iff (x : Byte) : x &&& ~~~slotKindPlaces ≠ 0 ↔ x.getLsbD 7 = true := by
  refine (and_not_lowPlaces_ne_zero x 7).trans ?_
  have msb : x.getLsbD 7 = x.msb := (BitVec.msb_eq_getLsbD_last x).symm
  rw [msb, BitVec.msb_eq_decide, decide_eq_true_eq]

/-- A device mask has a flag outside the four places exactly when its number is 16 or more (R173, R199). -/
theorem deviceMask_outside_iff (x : Byte) : x &&& ~~~deviceKindPlaces ≠ 0 ↔ 16 ≤ x.toNat := and_not_lowPlaces_ne_zero x 4

/-- Settles O17: the masks and the enable flag are in range, or the body refuses them. -/
theorem setAttentionMaskOutcome : Obligations.SetAttentionMaskOutcome := by
  intro slotMask deviceMask enable s ready i good
  have outside : (slotMask &&& ~~~slotKindPlaces ≠ 0 ∨ deviceMask &&& ~~~deviceKindPlaces ≠ 0)
      ↔ ¬ (slotMask.getLsbD 7 = false ∧ deviceMask.toNat < 16) := by
    rw [slotMask_outside_iff, deviceMask_outside_iff, Decidable.not_and_iff_or_not, Bool.not_eq_false, Nat.not_lt]
  refine ⟨fun bad => go_refused ready ?_, fun ⟨slots, device, flag⟩ => go_success ready ?_ ready.noTake⟩
  · by_cases masks : slotMask.getLsbD 7 = false ∧ deviceMask.toNat < 16
    · have flag : flagArg enable = none := flagArg_eq_none fun flag => bad ⟨masks.1, masks.2, flag⟩
      refine (if_neg fun h => outside.mp h masks).trans ?_
      rw [flag]
    · exact if_pos (outside.mpr masks)
  · refine (if_neg fun h => outside.mp h ⟨slots, device⟩).trans ?_
    rw [flagArg_eq flag]
    rfl

/-- The body of READ_ATTENTION on a slot number (R191). -/
theorem readAttentionBody_slot {which : Byte} {n : Fin 16} (u : State) (hn : n.val = which.toNat) :
    readAttentionBody which u = .done [(u.slot n).attention] (u.modSlot n fun x => { x with attention := 0 }) := by
  have slot : which ≠ 0xFF#8 := by
    rintro rfl
    exact absurd hn (Nat.ne_of_lt (Nat.lt_trans n.isLt (by decide)))
  rw [readAttentionBody, if_neg slot, slotArg_of_lt hn]

/-- Settles O29: FFh names the device set, a slot number the set of its slot, and every other number none. -/
theorem readAttentionEmptiesSet : Obligations.ReadAttentionEmptiesSet := by
  intro which s ready i
  refine ⟨fun large other => go_refused ready ?_, fun device => go_success ready (if_pos device) ready.noTake,
    fun n hn => go_success ready (readAttentionBody_slot _ hn) ready.noTake⟩
  rw [readAttentionBody, if_neg other, slotArg_eq_none.mpr large]

/-! ### DEVICE_RESET (R175) -/

/-- A FREE record stays as it is, and an allocated one is freed (R13, R16). -/
theorem entry_deviceReset (s : State) (e : Fin 96) : s.deviceReset.entry e =
    { gen := if s.binding e = none then (s.entry e).gen else (s.entry e).gen + 1, binding := none } := by
  have freed : s.deviceReset.entry e = (s.entry e).free := getElem_tabulate 96 _ e.val e.isLt
  rw [freed, Entry.free, State.binding_eq]
  cases h : s.entry e with
  | mk gen binding => cases binding <;> rfl

/-- A frame in transmission ends with a bad check sequence; without one the last frame stays (R97, R175; log 12). -/
theorem lastEnded_deviceReset (s : State) :
    (∀ x, s.tx = some x → s.deviceReset.lastEnded = some { frame := x.frame, checkGood := false })
      ∧ (s.tx = none → s.deviceReset.lastEnded = s.lastEnded) := by
  rw [State.deviceReset]
  constructor
  · intro x sending
    simp only [sending]
  · intro quiet
    simp only [quiet]

/-- Settles O18: the records are blank, but for the generations and the frame port's output. -/
theorem deviceResetOutcome : Obligations.DeviceResetOutcome := by
  intro s ready
  have blank := deviceReset_blank (running_of_idle ready.2)
  have noTake : s.deviceReset.canTake = false := by simp [State.canTake, State.deviceReset]
  obtain ⟨cutOff, kept⟩ := lastEnded_deviceReset s
  exact ⟨success .deviceReset s.deviceReset [], go_success ready rfl noTake, rfl, blank.slot, entry_deviceReset s,
    blank.way, blank.pattern, cutOff, kept⟩

/-! ### ATTACH_PATTERN and DETACH_PATTERN (R122, R123, R180, R181) -/

section
variable {slot pattern : Byte} {n : Fin 16} {p : Fin 32} (u : State)

/-- The body of ATTACH_PATTERN on numbers that are in range (R180). -/
theorem attachPatternBody_eq (hn : n.val = slot.toNat) (hp : p.val = pattern.toNat) : attachPatternBody slot pattern u =
    if p ∈ (u.slot n).patterns then .refuse .badParameter
    else if (u.slot n).state ≠ .staged then .refuse .wrongState
    else if (u.pattern p).definition.isNone then .refuse .notFound
    else if Config.patternListLimit ≤ (u.slot n).patterns.length then .refuse .slotFull
    else .done [countByte ((u.pattern p).refs + 1)]
      ((u.setPattern p { u.pattern p with refs := (u.pattern p).refs + 1 }).modSlot n fun x =>
        { x with patterns := x.patterns ++ [p] }) := by
  rw [attachPatternBody, slotArg_of_lt hn, patternArg_eq_some hp]

/-- The body of DETACH_PATTERN on numbers that are in range (R181). -/
theorem detachPatternBody_eq (hn : n.val = slot.toNat) (hp : p.val = pattern.toNat) : detachPatternBody slot pattern u =
    if (u.slot n).state ≠ .staged then .refuse .wrongState
    else if p ∉ (u.slot n).patterns then .refuse .notFound
    else .done [countByte ((u.pattern p).refs - 1)]
      ((u.setPattern p { u.pattern p with refs := (u.pattern p).refs - 1 }).modSlot n fun x =>
        { x with patterns := x.patterns.erase p }) := by
  rw [detachPatternBody, slotArg_of_lt hn, patternArg_eq_some hp]

/-- One of a slot number and a pattern number gives nothing when one is out of range (R169). -/
theorem slotArg_or_patternArg_eq_none (h : ¬ (slot.toNat < 16 ∧ pattern.toNat < 32)) :
    slotArg slot = none ∨ patternArg pattern = none :=
  (Decidable.not_and_iff_or_not.mp h).imp (fun large => slotArg_eq_none.mpr (Nat.le_of_not_lt large))
    fun large => patternArg_eq_none (Nat.le_of_not_lt large)

theorem attachPatternBody_refuses (h : ¬ (slot.toNat < 16 ∧ pattern.toNat < 32)) :
    attachPatternBody slot pattern u = .refuse .badParameter := by
  rw [attachPatternBody]
  cases hn : slotArg slot with
  | none => rfl
  | some n => rw [(slotArg_or_patternArg_eq_none h).resolve_left (by simp [hn])]

theorem detachPatternBody_refuses (h : ¬ (slot.toNat < 16 ∧ pattern.toNat < 32)) :
    detachPatternBody slot pattern u = .refuse .badParameter := by
  rw [detachPatternBody]
  cases hn : slotArg slot with
  | none => rfl
  | some n => rw [(slotArg_or_patternArg_eq_none h).resolve_left (by simp [hn])]

end

/-- Settles O23: both numbers are in range, or the bodies refuse them; then the checks of each in their order. -/
theorem patternListOutcome : Obligations.PatternListOutcome := by
  constructor
  · intro slot pattern s ready i
    refine ⟨fun bad => go_refused ready (attachPatternBody_refuses _ bad), fun n p hn hp => ?_⟩
    intro fresh staged
    have body := attachPatternBody_eq (s.placeCommand i) hn hp
    have defined : (s.pattern p).definition.isNone = true ↔ (s.pattern p).definition = none := Option.isNone_iff_eq_none
    refine ⟨fun listed => go_refused ready (body.trans (if_pos (not_not.mp listed))),
      fun new other => go_refused ready (body.trans <| (if_neg new).trans (if_pos other)),
      fun new st empty => go_refused ready ?_, fun new st given full => go_refused ready ?_,
      fun new st given room => go_success ready ?_ ready.noTake⟩
    all_goals
      have checked := body.trans <| (if_neg new).trans (if_neg (not_not.mpr st))
    · exact checked.trans (if_pos (defined.mpr empty))
    · exact checked.trans <| (if_neg fun h => given (defined.mp h)).trans (if_pos full)
    · exact checked.trans <| (if_neg fun h => given (defined.mp h)).trans (if_neg (Nat.not_le.mpr room))
  · intro slot pattern s ready i
    refine ⟨fun bad => go_refused ready (detachPatternBody_refuses _ bad), fun n p hn hp => ?_⟩
    intro staged
    have body := detachPatternBody_eq (s.placeCommand i) hn hp
    exact ⟨fun other => go_refused ready (body.trans (if_pos other)),
      fun st absent => go_refused ready (body.trans <| (if_neg (not_not.mpr st)).trans (if_pos absent)),
      fun st listed => go_success ready (body.trans <| (if_neg (not_not.mpr st)).trans (if_neg (not_not.mpr listed)))
        ready.noTake⟩

/-! ### DISARM and WAKE (R39, R40, R131, R183, R184) -/

theorem Binding.disarm_eq : Binding.disarm = fun b =>
    if b.claim = .tentative ∨ b.claim = .held ∨ b.claim = .defended then
      { b with claim := .quiet, probeDue := none, defenceDue := none, duty := none }
    else b := by
  funext b
  unfold Binding.disarm
  split <;> next h => simp [h]

section
variable {slot : Byte} {n : Fin 16} {u : State} (hn : n.val = slot.toNat)
include hn

theorem disarmBody_armed (armed : (u.slot n).state = .armed) :
    disarmBody slot u = .done [] (u.modSlot n fun x => { x with state := .staged }) := by
  rw [disarmBody, slotArg_of_lt hn]
  simp only [armed]

theorem disarmBody_probing (probing : (u.slot n).state = .probing) : disarmBody slot u =
    .done [] ((u.modBindings (u.slot n).addresses Binding.disarm).modSlot n fun x => { x with state := .staged }) := by
  rw [disarmBody, slotArg_of_lt hn]
  simp only [probing]

theorem disarmBody_refuses (armed : (u.slot n).state ≠ .armed) (probing : (u.slot n).state ≠ .probing) :
    disarmBody slot u = .refuse .wrongState := by
  rw [disarmBody, slotArg_of_lt hn]
  cases h : (u.slot n).state
  case armed => exact absurd h armed
  case probing => exact absurd h probing
  all_goals simp only [h]

theorem wakeBody_wakes (asleep : (u.slot n).state = .proxying ∨ (u.slot n).state = .dark) :
    wakeBody slot u = .done [] (u.startWake n .command) := by
  rw [wakeBody, slotArg_of_lt hn]
  rcases asleep with proxying | dark
  · simp only [proxying]
  · simp only [dark]

theorem wakeBody_refuses (proxying : (u.slot n).state ≠ .proxying) (dark : (u.slot n).state ≠ .dark) :
    wakeBody slot u = .refuse .wrongState := by
  rw [wakeBody, slotArg_of_lt hn]
  cases h : (u.slot n).state
  case proxying => exact absurd h proxying
  case dark => exact absurd h dark
  all_goals simp only [h]

end

/-- A wake begins with the slot's record `woken` (R39, R131, R137). -/
theorem startWake_eq (s : State) (n : Fin 16) (c : WakeCause) : s.startWake n c = s.setSlot n (woken s.now c (s.slot n)) := rfl

/-- Settles O25: the slot number, then the slot state; the record of a slot that wakes is that of a first attempt. -/
theorem disarmAndWakeOutcome : Obligations.DisarmAndWakeOutcome := by
  constructor
  · intro slot s ready i
    refine ⟨fun large => go_refused ready (by rw [disarmBody, slotArg_eq_none.mpr large]),
      fun n hn => ⟨fun armed probing => go_refused ready (disarmBody_refuses hn armed probing),
        fun armed => go_success ready (disarmBody_armed hn armed) ready.noTake, fun probing => ?_⟩⟩
    rw [← Binding.disarm_eq]
    exact go_success ready (disarmBody_probing hn probing) ready.noTake
  · intro slot s ready i
    refine ⟨fun large => go_refused ready (by rw [wakeBody, slotArg_eq_none.mpr large]),
      fun n hn => ⟨fun proxying dark => go_refused ready (wakeBody_refuses hn proxying dark), fun asleep => ?_⟩⟩
    rw [← startWake_eq]
    exact go_success ready (wakeBody_wakes hn asleep) ready.noTake

end Sys2Proof.Machine

namespace Sys2Proof.Machine

/-! ## The response data of the reads -/

/-! ### Numbers and lists as bytes (R196, R202) -/

theorem toBytesLE_eq_map (n x : Nat) : toBytesLE n x = (List.range n).map fun k => BitVec.ofNat 8 (x / 256 ^ k) := by
  rw [toBytesLE, toBytesBE_eq_reverse, List.reverse_reverse]

/-- The places of a table of bytes. -/
theorem byteAt_map_range (f : Nat → Byte) {n k : Nat} (h : k < n) : byteAt ((List.range n).map f) k = f k := by
  simp [byteAt, h]

/-- The byte `k` of a number, low byte first (R196). -/
theorem byteAt_toBytesLE {w n k : Nat} (a : BitVec w) (h : k < n) : byteAt (toBytesLE n a.toNat) k = a.extractLsb' (8 * k) 8 := by
  rw [toBytesLE_eq_map, byteAt_map_range _ h, byte_of_number]

/-- The byte `k` of an address, first byte first (R196). -/
theorem byteAt_toBytesBE {w n k : Nat} (a : BitVec w) (h : k < n) :
    byteAt (toBytesBE n a.toNat) k = a.extractLsb' (8 * (n - 1 - k)) 8 := by
  rw [toBytesBE_eq_reverse, byteAt, List.getD_eq_getElem _ _ (by simpa using h), List.getElem_reverse]
  simp [byte_of_number]

/-- The place `k` of a list of numbers; beyond the list it is 00h (R188, R202). -/
theorem byteAt_listBytes (l : List Nat) {n k : Nat} (h : k < n) : byteAt (listBytes n l) k = countByte (l.getD k 0) :=
  byteAt_map_range _ h

/-- A block of bytes stands after those before it. -/
theorem byteAt_block {l : List Byte} (before block : List Byte) {rest : List Byte} (h : l = before ++ (block ++ rest)) {k : Nat}
    (inside : k < block.length) : byteAt l (before.length + k) = byteAt block k := by
  rw [h, byteAt_append_right, byteAt_append_left _ inside]

/-- A number of 2 bytes, low byte first (R196). -/
theorem two_of_bytes {l : List Byte} {k x : Nat} (low : byteAt l k = BitVec.ofNat 8 x)
    (high : byteAt l (k + 1) = BitVec.ofNat 8 (x / 256)) :
    (byteAt l k).toNat + 256 * (byteAt l (k + 1)).toNat = x % 65536 := by
  rw [low, high, BitVec.toNat_ofNat, BitVec.toNat_ofNat]
  omega

/-- Numbers of `n` bytes one after another: byte `j` of number `i` (R196, R202). -/
theorem byteAt_numbers (n : Nat) {j : Nat} (hj : j < n) : ∀ (numbers : List Nat) {i x : Nat}, numbers[i]? = some x →
    byteAt (numbers.flatMap (toBytesLE n)) (n * i + j) = BitVec.ofNat 8 (x / 256 ^ j)
  | [], _, _, h => by simp at h
  | y :: ys, i, x, h => by
    have length : (toBytesLE n y).length = n := by rw [toBytesLE, List.length_reverse, length_toBytesBE]
    rw [List.flatMap_cons]
    cases i with
    | zero =>
      obtain rfl : y = x := by simpa using h
      rw [Nat.mul_zero, Nat.zero_add, byteAt_append_left _ (length.symm ▸ hj), toBytesLE_eq_map, byteAt_map_range _ hj]
    | succ i =>
      have place : n * (i + 1) + j = (toBytesLE n y).length + (n * i + j) := by rw [length]; ring
      rw [place, byteAt_append_right]
      exact byteAt_numbers n hj ys (by simpa using h)

/-- Numbers of 2 bytes from place `k` on (R196, R202). -/
theorem two_of_numbers {l : List Byte} {k : Nat} {numbers : List Nat}
    (h : ∀ j, byteAt l (k + j) = byteAt (numbers.flatMap (toBytesLE 2)) j) {i : Nat} {c : BitVec 16} (hc : numbers[i]? = some c.toNat) :
    (byteAt l (k + 2 * i)).toNat + 256 * (byteAt l (k + 2 * i + 1)).toNat = c.toNat := by
  have byte : ∀ j, j < 2 → byteAt l (k + 2 * i + j) = BitVec.ofNat 8 (c.toNat / 256 ^ j) := fun j hj => by
    rw [Nat.add_assoc, h, byteAt_numbers 2 hj numbers hc]
  have low := byte 0 (by omega)
  rw [Nat.pow_zero, Nat.div_one] at low
  exact (two_of_bytes low (byte 1 (by omega))).trans (Nat.mod_eq_of_lt c.isLt)

/-- Numbers of 4 bytes from place `k` on (R196, R202). -/
theorem four_of_numbers {l : List Byte} {k : Nat} {numbers : List Nat}
    (h : ∀ j, byteAt l (k + j) = byteAt (numbers.flatMap (toBytesLE 4)) j) {i : Nat} {c : BitVec 32} (hc : numbers[i]? = some c.toNat) :
    (byteAt l (k + 4 * i)).toNat + 256 * (byteAt l (k + 4 * i + 1)).toNat
      + 65536 * ((byteAt l (k + 4 * i + 2)).toNat + 256 * (byteAt l (k + 4 * i + 2 + 1)).toNat) = c.toNat := by
  have byte : ∀ j, j < 4 → (byteAt l (k + 4 * i + j)).toNat = c.toNat / 256 ^ j % 256 := fun j hj => by
    rw [Nat.add_assoc, h, byteAt_numbers 4 hj numbers hc, BitVec.toNat_ofNat]
  have b0 := byte 0 (by omega)
  have b1 := byte 1 (by omega)
  have b2 := byte 2 (by omega)
  have b3 : (byteAt l (k + 4 * i + 2 + 1)).toNat = c.toNat / 256 ^ 3 % 256 := byte 3 (by omega)
  have := c.isLt
  rw [Nat.add_zero] at b0
  omega

/-- What a response gives of a timer or deadline: 0 when stopped, and at least 1 while running (R169, R209). -/
theorem timeLeft_of_two {now x : Nat} {due : Option Nat} (h : x = remaining now due % 65536) :
    (due = none → x = 0) ∧ ∀ d, due = some d → x = (if d ≤ now then 1 else d - now) % 65536 := by
  subst h
  refine ⟨fun stopped => by rw [stopped]; rfl, fun d running => ?_⟩
  rw [running, remaining]
  congr 1
  split <;> omega

/-! ### READ_ENTRY (R189, R198, R202) -/

theorem entryData_free {x : Entry} (now : Nat) (e : Fin 96) (h : x.binding = none) :
    entryData now e x = [countByte e.val, freeCode, x.gen] ++ List.replicate 24 0x00#8 := by
  rw [entryData, h]

/-- The places of an allocated entry after its address (R202). -/
def Binding.claimBytes (now : Nat) (b : Binding) : List Byte :=
  [countByte b.probesSent, BitVec.ofNat 8 (remaining now b.probeDue), BitVec.ofNat 8 (remaining now b.probeDue / 256),
    BitVec.ofNat 8 (remaining now b.defenceDue), BitVec.ofNat 8 (remaining now b.defenceDue / 256),
    (b.duty.map Duty.code).getD 0x00#8]

/-- The places of an allocated entry: those up to its address, the address, and those after it (R202). -/
theorem entryData_bound {x : Entry} {b : Binding} (now : Nat) (e : Fin 96) (h : x.binding = some b) : entryData now e x =
    [countByte e.val, b.claim.code, x.gen, countByte b.owner.val, b.addr.familyCode]
      ++ (b.addr.responseBytes ++ b.claimBytes now) := by
  rw [entryData, h]
  simp only [Binding.claimBytes, toBytesLE_two, List.append_assoc, List.cons_append, List.nil_append]

theorem length_responseBytes (a : Addr) : a.responseBytes.length = 16 := by
  cases a <;> simp [Addr.responseBytes]

/-- Past its first bytes a response is 00h (R202). -/
theorem byteAt_zeros_after (before : List Byte) (n : Nat) {k : Nat} (h : before.length ≤ k) :
    byteAt (before ++ List.replicate n 0x00#8) k = 0 := by
  obtain ⟨j, rfl⟩ := Nat.exists_eq_add_of_le h
  rw [byteAt_append_right]
  rw [byteAt, List.getD_eq_getElem?_getD, List.getElem?_getD_replicate_default_eq]
  rfl

/-- The 16 bytes of a V4 address: its own, and then 00h (R196). -/
theorem byteAt_responseBytes_v4 (a : BitVec 32) :
    (∀ k, k < 4 → byteAt (Addr.v4 a).responseBytes k = a.extractLsb' (8 * (3 - k)) 8)
      ∧ ∀ k, 4 ≤ k → byteAt (Addr.v4 a).responseBytes k = 0 := by
  have own : (toBytesBE 4 a.toNat).length = 4 := length_toBytesBE 4 _
  refine ⟨fun k h => ?_, fun k h => byteAt_zeros_after _ 12 (own.le.trans h)⟩
  exact (byteAt_append_left _ (h.trans_eq own.symm)).trans (byteAt_toBytesBE a h)

/-- The bytes of a V6 address (R196). -/
theorem byteAt_responseBytes_v6 (a : BitVec 128) {k : Nat} (h : k < 16) :
    byteAt (Addr.v6 a).responseBytes k = a.extractLsb' (8 * (15 - k)) 8 := byteAt_toBytesBE a h

/-- The address of an allocated entry stands from place 5 on (R202). -/
theorem byteAt_entryData_address {x : Entry} {b : Binding} (now : Nat) (e : Fin 96) (h : x.binding = some b) {k : Nat} (hk : k < 16) :
    byteAt (entryData now e x) (5 + k) = byteAt b.addr.responseBytes k :=
  byteAt_block _ _ (entryData_bound now e h) (by rwa [length_responseBytes])

theorem byteAt_entryData_claim {x : Entry} {b : Binding} (now : Nat) (e : Fin 96) (h : x.binding = some b) (k : Nat) :
    byteAt (entryData now e x) (0x15 + k) = byteAt (b.claimBytes now) k := by
  have length : ([countByte e.val, b.claim.code, x.gen, countByte b.owner.val, b.addr.familyCode] ++ b.addr.responseBytes).length
      = 0x15 := by rw [List.length_append, length_responseBytes]; rfl
  rw [entryData_bound now e h, ← List.append_assoc, ← length, byteAt_append_right]

theorem length_entryData (now : Nat) (e : Fin 96) (x : Entry) : (entryData now e x).length = 0x1B := by
  cases h : x.binding with
  | none => rw [entryData_free now e h]; rfl
  | some b => rw [entryData_bound now e h, List.length_append, List.length_append, length_responseBytes]; rfl

/-- The places before the address that do not depend on whether the entry is allocated (R202). -/
theorem byteAt_entryData_head (now : Nat) (e : Fin 96) (x : Entry) :
    byteAt (entryData now e x) 0 = countByte e.val ∧ byteAt (entryData now e x) 2 = x.gen := by
  cases h : x.binding with
  | none => rw [entryData_free now e h]; exact ⟨rfl, rfl⟩
  | some b => rw [entryData_bound now e h]; exact ⟨rfl, rfl⟩

/-! ### READ_PATTERN (R194, R198, R200, R202) -/

theorem patternData_empty {x : Pattern} (h : x.definition = none) :
    patternData x = [emptyCode, countByte x.refs] ++ List.replicate 38 0x00#8 := by
  rw [patternData, h]

theorem patternData_defined {x : Pattern} {d : PatternDef} (h : x.definition = some d) : patternData x =
    [definedCode, countByte x.refs, countByte d.offset, countByte d.length] ++ (toBytesLE 4 d.mask.toNat ++ d.value.toList) := by
  rw [patternData, h]
  exact List.append_assoc _ _ _

theorem length_patternData (x : Pattern) : (patternData x).length = 0x28 := by
  cases h : x.definition with
  | none => rw [patternData_empty h]; rfl
  | some d => rw [patternData_defined h, List.length_append, List.length_append, Vector.length_toList]; rfl

theorem byteAt_patternData_refs (x : Pattern) : byteAt (patternData x) 1 = countByte x.refs := by
  cases h : x.definition with
  | none => rw [patternData_empty h]; rfl
  | some d => rw [patternData_defined h]; rfl

/-- Flag `i` of the mask is bit `i` mod 8 of its byte `i` / 8 (R200). -/
theorem getLsbD_patternData_mask {x : Pattern} {d : PatternDef} (h : x.definition = some d) (i : Fin 32) :
    (byteAt (patternData x) (4 + i.val / 8)).getLsbD (i.val % 8) = d.mask.getLsbD i.val := by
  have byte : i.val / 8 < 4 := by omega
  have block : byteAt (patternData x) (4 + i.val / 8) = byteAt (toBytesLE 4 d.mask.toNat) (i.val / 8) :=
    byteAt_block _ _ (patternData_defined h) byte
  rw [block, byteAt_toBytesLE d.mask byte, BitVec.getLsbD_extractLsb', Nat.div_add_mod, decide_eq_true (by omega), Bool.true_and]

/-- The value bytes stand from place 8 on (R202). -/
theorem byteAt_patternData_value {x : Pattern} {d : PatternDef} (h : x.definition = some d) (i : Fin 32) :
    byteAt (patternData x) (8 + i.val) = d.value[i] := by
  have block : byteAt (patternData x) (8 + i.val) = byteAt d.value.toList i.val := by
    rw [patternData_defined h, ← List.append_assoc]
    exact byteAt_append_right _ _ i.val
  exact block.trans (byteAt_toList d.value i.isLt)

/-! ### READ_SLOT (R188, R198, R202) -/

/-- The bytes of a link address, first byte first (R196). -/
theorem byteAt_linkBytes (a : LinkAddr) {k : Nat} (h : k < 6) : byteAt (linkBytes a) k = a.extractLsb' (8 * (5 - k)) 8 :=
  byteAt_toBytesBE a h

theorem length_linkBytes (a : LinkAddr) : (linkBytes a).length = 6 := length_toBytesBE 6 _

theorem length_listBytes (n : Nat) (l : List Nat) : (listBytes n l).length = n := by simp [listBytes]

/-- The counters of a slot in the order of R202. -/
def SlotCounters.numbers (c : SlotCounters) : List Nat :=
  [c.answersSent.toNat, c.wakeMatches.toNat, c.lateMatches.toNat, c.claimsSeen.toNat, c.wakePulses.toNat]

theorem SlotCounters.bytes_eq (c : SlotCounters) : c.bytes = c.numbers.flatMap (toBytesLE 2) := by
  simp [SlotCounters.bytes, SlotCounters.numbers]

/-- The response before the policy: state, lines, client, mode and the two lists (R202). -/
def slotHead (v : Bool) (x : Slot) : List Byte :=
  [x.state.code, flagByte v, flagByte x.wakeLine] ++ (linkBytes (x.client.getD 0) ++ ([(x.mode.map AnswerMode.code).getD 0x00#8,
    countByte x.addresses.length] ++ (listBytes 8 (x.addresses.map (·.val)) ++ ([countByte x.patterns.length]
      ++ listBytes 4 (x.patterns.map (·.val))))))

/-- The response from the policy to the timers (R202). -/
def slotPolicy (now : Nat) (x : Slot) : List Byte :=
  [x.loss.code, flagByte x.autoRearm, countByte x.pulseWidth, BitVec.ofNat 8 x.wakeTimeout, BitVec.ofNat 8 (x.wakeTimeout / 256),
    countByte x.wakeRetries, countByte x.attempts, (x.cause.map WakeCause.code).getD 0x00#8,
    (x.cause.map WakeCause.patternNumber).getD 0x00#8, BitVec.ofNat 8 (remaining now x.pulseDue),
    BitVec.ofNat 8 (remaining now x.pulseDue / 256), BitVec.ofNat 8 (remaining now x.timeoutDue),
    BitVec.ofNat 8 (remaining now x.timeoutDue / 256)]

theorem slotData_eq (now : Nat) (v : Bool) (x : Slot) : slotData now v x = slotHead v x ++ (slotPolicy now x ++ x.counters.bytes) := by
  simp only [slotData, slotHead, slotPolicy, toBytesLE_two, List.append_assoc, List.cons_append, List.nil_append]

theorem length_slotHead (v : Bool) (x : Slot) : (slotHead v x).length = 0x18 := by
  simp [slotHead, length_linkBytes, length_listBytes]

theorem length_slotData (now : Nat) (v : Bool) (x : Slot) : (slotData now v x).length = 0x2F := by
  rw [slotData_eq, List.length_append, List.length_append, length_slotHead]
  rfl

theorem byteAt_slotData_head (now : Nat) (v : Bool) (x : Slot) {k : Nat} (h : k < 0x18) :
    byteAt (slotData now v x) k = byteAt (slotHead v x) k := by
  rw [slotData_eq, byteAt_append_left _ ((length_slotHead v x).symm ▸ h)]

theorem byteAt_slotData_policy (now : Nat) (v : Bool) (x : Slot) {k : Nat} (h : k < 13) :
    byteAt (slotData now v x) (0x18 + k) = byteAt (slotPolicy now x) k := by
  rw [slotData_eq, ← length_slotHead v x, byteAt_append_right, byteAt_append_left _ h]

theorem byteAt_slotData_counters (now : Nat) (v : Bool) (x : Slot) (k : Nat) :
    byteAt (slotData now v x) (0x25 + k) = byteAt (x.counters.numbers.flatMap (toBytesLE 2)) k := by
  have length : (slotHead v x ++ slotPolicy now x).length = 0x25 := by rw [List.length_append, length_slotHead]; rfl
  rw [slotData_eq, ← List.append_assoc, ← length, byteAt_append_right, SlotCounters.bytes_eq]

/-- The wake cause and its pattern number (R188, R202). -/
theorem byteAt_slotData_cause (now : Nat) (v : Bool) {x : Slot} {c : Option WakeCause} (h : x.cause = c) :
    byteAt (slotData now v x) 0x1F = (c.map WakeCause.code).getD 0x00#8
      ∧ byteAt (slotData now v x) 0x20 = (c.map WakeCause.patternNumber).getD 0x00#8 := by
  subst h
  exact ⟨byteAt_slotData_policy now v x (k := 7) (by decide), byteAt_slotData_policy now v x (k := 8) (by decide)⟩

/-- The client address stands from place 3 on (R202). -/
theorem byteAt_slotHead_client (v : Bool) (x : Slot) {k : Nat} (h : k < 6) :
    byteAt (slotHead v x) (3 + k) = (x.client.getD 0).extractLsb' (8 * (5 - k)) 8 :=
  (byteAt_block [x.state.code, flagByte v, flagByte x.wakeLine] _ rfl (h.trans_eq (length_linkBytes _).symm)).trans
    (byteAt_linkBytes _ h)

/-- The answer mode and the address list follow the client address (R202). -/
theorem byteAt_slotHead_lists (v : Bool) (x : Slot) (k : Nat) : byteAt (slotHead v x) (9 + k)
    = byteAt ([(x.mode.map AnswerMode.code).getD 0x00#8, countByte x.addresses.length] ++ (listBytes 8 (x.addresses.map (·.val))
      ++ ([countByte x.patterns.length] ++ listBytes 4 (x.patterns.map (·.val))))) k := by
  have length : ([x.state.code, flagByte v, flagByte x.wakeLine] ++ linkBytes (x.client.getD 0)).length = 9 := by
    rw [List.length_append, length_linkBytes]; rfl
  rw [slotHead, ← List.append_assoc, ← length, byteAt_append_right]

/-- The address list stands from place 0Bh on (R202). -/
theorem byteAt_slotHead_addresses (v : Bool) (x : Slot) {k : Nat} (h : k < 8) :
    byteAt (slotHead v x) (0x0B + k) = countByte ((x.addresses.map (·.val)).getD k 0) := by
  rw [Nat.add_assoc 9 2 k, byteAt_slotHead_lists]
  exact (byteAt_block [_, _] _ rfl (h.trans_eq (length_listBytes 8 _).symm)).trans (byteAt_listBytes _ h)

/-- The pattern list follows the address list (R202). -/
theorem byteAt_slotHead_patterns (v : Bool) (x : Slot) (k : Nat) : byteAt (slotHead v x) (0x13 + k)
    = byteAt ([countByte x.patterns.length] ++ listBytes 4 (x.patterns.map (·.val))) k := by
  have length : ([(x.mode.map AnswerMode.code).getD 0x00#8, countByte x.addresses.length]
      ++ listBytes 8 (x.addresses.map (·.val))).length = 0x0A := by rw [List.length_append, length_listBytes]; rfl
  rw [Nat.add_assoc 9 0x0A k, byteAt_slotHead_lists, ← List.append_assoc, ← length, byteAt_append_right]

/-! ### READ_DEVICE (R174, R202) -/

/-- The device counters in the order of R202. -/
def DeviceCounters.numbers (c : DeviceCounters) : List Nat :=
  [c.framesTaken.toNat, c.framesRefused.toNat, c.checksumFailures.toNat, c.answersTransmitted.toNat, c.answersDropped.toNat,
    c.itemsDiscarded.toNat, c.dutiesTransmitted.toNat]

theorem DeviceCounters.bytes_eq (c : DeviceCounters) : c.bytes = c.numbers.flatMap (toBytesLE 4) := by
  simp [DeviceCounters.bytes, DeviceCounters.numbers]

/-- The response between the station address and the counters (R202). -/
def State.deviceMiddle (s : State) : List Byte :=
  [BitVec.ofNat 8 s.settings.segment.toNat, BitVec.ofNat 8 (s.settings.segment.toNat / 256), countByte s.settings.probeCount,
    BitVec.ofNat 8 s.settings.probeInterval, BitVec.ofNat 8 (s.settings.probeInterval / 256), countByte s.settings.defenceWindow,
    s.settings.slotMask, s.settings.deviceMask, flagByte s.settings.completionEnable, flagByte s.link, countByte s.freeCount,
    countByte s.emptyPatterns, countByte s.queue.length, flagByte s.tx.isSome]

theorem deviceData_eq (s : State) :
    s.deviceData = linkBytes s.settings.station ++ (s.deviceMiddle ++ s.counters.numbers.flatMap (toBytesLE 4)) := by
  rw [← DeviceCounters.bytes_eq]
  simp only [State.deviceData, State.deviceMiddle, toBytesLE_two, List.append_assoc, List.cons_append, List.nil_append]

theorem length_deviceData (s : State) : s.deviceData.length = 0x30 := by
  rw [deviceData_eq, ← DeviceCounters.bytes_eq, List.length_append, List.length_append, length_linkBytes]
  rfl

/-- The station address stands first (R202). -/
theorem byteAt_deviceData_station (s : State) {k : Nat} (h : k < 6) :
    byteAt s.deviceData k = s.settings.station.extractLsb' (8 * (5 - k)) 8 := by
  rw [deviceData_eq, byteAt_append_left _ (h.trans_eq (length_linkBytes _).symm), byteAt_linkBytes _ h]

theorem byteAt_deviceData_middle (s : State) {k : Nat} (h : k < 14) : byteAt s.deviceData (6 + k) = byteAt s.deviceMiddle k := by
  rw [← length_linkBytes s.settings.station]
  exact byteAt_block _ _ (deviceData_eq s) h

theorem byteAt_deviceData_counters (s : State) (k : Nat) :
    byteAt s.deviceData (0x14 + k) = byteAt (s.counters.numbers.flatMap (toBytesLE 4)) k := by
  have length : (linkBytes s.settings.station ++ s.deviceMiddle).length = 0x14 := by
    rw [List.length_append, length_linkBytes]; rfl
  rw [deviceData_eq, ← List.append_assoc, ← length, byteAt_append_right]

/-- A count of some of fewer than 256 records is a byte (R174). -/
theorem toNat_countByte_filter {n : Nat} (p : Fin n → Bool) (small : n < 256) :
    (countByte ((List.finRange n).filter p).length).toNat = ((List.finRange n).filter p).length := by
  have most : ((List.finRange n).filter p).length ≤ n := (List.length_filter_le _ _).trans_eq List.length_finRange
  rw [countByte, BitVec.toNat_ofNat, Nat.mod_eq_of_lt (by omega)]

/-- The number of FREE entries (R174). -/
theorem toNat_freeCount (s : State) :
    (countByte s.freeCount).toNat = ((List.finRange 96).filter fun e => decide (s.binding e = none)).length := by
  rw [State.freeCount, toNat_countByte_filter _ (by decide)]
  congr 2
  funext e
  rw [Bool.eq_iff_iff, decide_eq_true_eq, Option.isNone_iff_eq_none]

/-- The number of EMPTY patterns (R174). -/
theorem toNat_emptyPatterns (s : State) : (countByte s.emptyPatterns).toNat
    = ((List.finRange 32).filter fun p => decide ((s.pattern p).definition = none)).length := by
  rw [State.emptyPatterns, toNat_countByte_filter _ (by decide)]
  congr 2
  funext e
  rw [Bool.eq_iff_iff, decide_eq_true_eq, Option.isNone_iff_eq_none]

/-- Settles O30: the four responses, block by block. -/
theorem responsePlaces : Obligations.ResponsePlaces := by
  unfold Obligations.ResponsePlaces
  intro two four flag left
  refine ⟨fun now e x => ?_, fun x => ?_, fun now v x => ?_, fun s => ?_⟩
  · intro l
    obtain ⟨number, gen⟩ := byteAt_entryData_head now e x
    refine ⟨length_entryData now e x, number, gen, fun free => ?_, fun b bound => ?_⟩
    · have data : l = _ := entryData_free now e free
      rw [data]
      exact ⟨rfl, fun k h => byteAt_zeros_after _ 24 h⟩
    have head : ∀ k, k < 5 → byteAt l k
        = byteAt [countByte e.val, b.claim.code, x.gen, countByte b.owner.val, b.addr.familyCode] k := fun k h =>
      (congrArg (byteAt · k) (entryData_bound now e bound)).trans (byteAt_append_left _ h)
    have address : ∀ k, k < 16 → byteAt l (5 + k) = byteAt b.addr.responseBytes k := fun k h => byteAt_entryData_address now e bound h
    have claim := byteAt_entryData_claim now e bound
    refine ⟨(head 1 (by decide)).trans ?_, head 3 (by decide), fun a v4 => ?_, fun a v6 => ?_, claim 0,
      timeLeft_of_two (two_of_bytes (claim 1) (claim 2)), timeLeft_of_two (two_of_bytes (claim 3) (claim 4)), (claim 5).trans ?_⟩
    · cases b.claim <;> rfl
    · rw [v4] at head address
      obtain ⟨own, after⟩ := byteAt_responseBytes_v4 a
      exact ⟨head 4 (by decide), fun k h => (address k (by omega)).trans (own k h), fun k h hk => (address k hk).trans (after k h)⟩
    · rw [v6] at head address
      exact ⟨head 4 (by decide), fun k h => (address k h).trans (byteAt_responseBytes_v6 a h)⟩
    · show (b.duty.map Duty.code).getD 0x00#8 = _
      cases b.duty with
      | none => rfl
      | some d => cases d <;> rfl
  · refine ⟨length_patternData x, byteAt_patternData_refs x, fun empty => ?_, fun d defined => ?_⟩
    · rw [patternData_empty empty]
      exact ⟨rfl, fun k h => byteAt_zeros_after _ 38 h⟩
    · refine ⟨?_, ?_, ?_, getLsbD_patternData_mask defined, byteAt_patternData_value defined⟩
      all_goals
        rw [patternData_defined defined]
        rfl
  · intro l
    have head : ∀ k, k < 0x18 → byteAt l k = byteAt (slotHead v x) k := fun k h => byteAt_slotData_head now v x h
    have lists := byteAt_slotHead_lists v x
    have policy : ∀ k, k < 13 → byteAt l (0x18 + k) = byteAt (slotPolicy now x) k := fun k h => byteAt_slotData_policy now v x h
    have cause := fun c => byteAt_slotData_cause now v (x := x) (c := c)
    have counter := fun i c => two_of_numbers (byteAt_slotData_counters now v x) (i := i) (c := c)
    refine ⟨length_slotData now v x, (head 0 (by decide)).trans ?_, head 1 (by decide), head 2 (by decide),
      fun k h => (head _ (by omega)).trans (byteAt_slotHead_client v x h),
      (head 9 (by decide)).trans ((lists 0).trans ?_), (head 0x0A (by decide)).trans (lists 1),
      fun k h => (head _ (by omega)).trans (byteAt_slotHead_addresses v x h),
      (head 0x13 (by decide)).trans (byteAt_slotHead_patterns v x 0),
      fun k h => (head _ (by omega)).trans ?_, (policy 0 (by decide)).trans ?_, policy 1 (by decide), policy 2 (by decide),
      two_of_bytes (policy 3 (by decide)) (policy 4 (by decide)), policy 5 (by decide), policy 6 (by decide),
      cause _, fun p => cause _, cause _, cause _,
      timeLeft_of_two (two_of_bytes (policy 9 (by decide)) (policy 10 (by decide))),
      timeLeft_of_two (two_of_bytes (policy 11 (by decide)) (policy 12 (by decide))),
      counter 0 _ rfl, counter 1 _ rfl, counter 2 _ rfl, counter 3 _ rfl, counter 4 _ rfl⟩
    · show x.state.code = _
      cases x.state <;> rfl
    · cases x.mode with
      | none => rfl
      | some m => cases m <;> rfl
    · rw [Nat.add_assoc 0x13 1 k, byteAt_slotHead_patterns]
      exact (byteAt_append_right _ _ k).trans (byteAt_listBytes _ h)
    · show x.loss.code = _
      cases x.loss <;> rfl
  · intro l
    have middle : ∀ k, k < 14 → byteAt l (6 + k) = byteAt s.deviceMiddle k := fun k h => byteAt_deviceData_middle s h
    have counter := fun i c => four_of_numbers (byteAt_deviceData_counters s) (i := i) (c := c)
    have segment : s.settings.segment.toNat % 65536 = s.settings.segment.toNat :=
      Nat.mod_eq_of_lt (s.settings.segment.isLt.trans (by decide))
    have free : byteAt l 0x10 = countByte s.freeCount := middle 10 (by decide)
    have empty : byteAt l 0x11 = countByte s.emptyPatterns := middle 11 (by decide)
    exact ⟨length_deviceData s, fun k h => byteAt_deviceData_station s h,
      (two_of_bytes (middle 0 (by decide)) (middle 1 (by decide))).trans segment, middle 2 (by decide),
      two_of_bytes (middle 3 (by decide)) (middle 4 (by decide)), middle 5 (by decide), middle 6 (by decide), middle 7 (by decide),
      middle 8 (by decide), middle 9 (by decide), (congrArg BitVec.toNat free).trans (toNat_freeCount s),
      (congrArg BitVec.toNat empty).trans (toNat_emptyPatterns s), middle 12 (by decide), middle 13 (by decide),
      counter 0 _ rfl, counter 1 _ rfl, counter 2 _ rfl, counter 3 _ rfl, counter 4 _ rfl, counter 5 _ rfl, counter 6 _ rfl⟩

end Sys2Proof.Machine

namespace Sys2Proof.Machine

/-! ## Frames sent: their fields, and what the intake reads of them -/

/-! ### A field in two parts -/

theorem field_add {f : List Byte} {off m k : Nat} (h : off + m + k ≤ f.length) :
    field f off (m + k) = field f off m * 256 ^ k + field f (off + m) k := by
  rw [field, slice_split, ofBytesBE_append, length_slice h, field, field]

/-- The first bytes of a field are its high part. -/
theorem field_add_div {f : List Byte} {off m k : Nat} (h : off + m + k ≤ f.length) :
    field f off (m + k) / 256 ^ k = field f off m := by
  rw [field_add h, Nat.mul_comm, Nat.mul_add_div (by positivity), Nat.div_eq_of_lt (field_lt f _ k), Nat.add_zero]

/-- The last bytes of a field are its low part. -/
theorem field_add_mod {f : List Byte} {off m k : Nat} (h : off + m + k ≤ f.length) :
    field f off (m + k) % 256 ^ k = field f (off + m) k := by
  rw [field_add h, Nat.mul_comm, Nat.mul_add_mod, Nat.mod_eq_of_lt (field_lt f _ k)]

/-! ### What the intake reads of given fields (R84, R85, R203) -/

theorem ofNat_field {w : Nat} {a : BitVec w} {n : Nat} (h : n = a.toNat) : BitVec.ofNat w n = a := by
  rw [h, BitVec.ofNat_toNat, BitVec.setWidth_eq]

section
variable {f : List Byte} {dest source : LinkAddr}

section
variable {operation : Nat} {senderHw targetHw : LinkAddr} {sender target : BitVec 32}

theorem V4Fields.links (h : V4Fields f dest source operation senderHw sender targetHw target) :
    destLink f = dest ∧ sourceLink f = source := by
  obtain ⟨-, dst, frm, -⟩ := h
  exact ⟨ofNat_field dst, ofNat_field frm⟩

theorem V4Fields.isResolution (h : V4Fields f dest source operation senderHw sender targetHw target)
    (known : operation = 1 ∨ operation = 2) : V4Resolution f := by
  obtain ⟨length, -, -, type, hardware, protocol, hwSize, size, op, -⟩ := h
  exact ⟨type, hardware, protocol, hwSize, size, op ▸ known, by omega⟩

theorem V4Fields.read (h : V4Fields f dest source operation senderHw sender targetHw target) :
    readV4Resolution f = .v4 (operation == 1) sender target := by
  obtain ⟨-, -, -, -, -, -, -, -, op, -, snd, -, tgt, -⟩ := h
  rw [readV4Resolution, op, ofNat_field snd, ofNat_field tgt]

/-- The intake takes such a frame as a resolution frame and reads its fields (R84). -/
theorem V4Fields.readBack (h : V4Fields f dest source operation senderHw sender targetHw target)
    (known : operation = 1 ∨ operation = 2) :
    f.length = 60 ∧ destLink f = dest ∧ sourceLink f = source ∧ isV4Resolution f = true
      ∧ readV4Resolution f = .v4 (operation == 1) sender target := by
  obtain ⟨dst, src⟩ := h.links
  exact ⟨h.1, dst, src, isV4Resolution_iff.mpr (h.isResolution known), h.read⟩

end

section
variable {ipSource ipDest target : BitVec 128} {type flags : Nat} {option : Option LinkAddr}

theorem V6Fields.links (h : V6Fields f dest source ipSource ipDest type flags target option) :
    destLink f = dest ∧ sourceLink f = source := by
  obtain ⟨dst, frm, -⟩ := h
  exact ⟨ofNat_field dst, ofNat_field frm⟩

/-- The link-address option adds 8 bytes to the 78 of a frame without one, and the payload runs to the frame's end (R205). -/
theorem V6Fields.length (h : V6Fields f dest source ipSource ipDest type flags target option) :
    f.length = (if option.isSome then 86 else 78) ∧ 54 + field f 18 2 = f.length := by
  obtain ⟨-, -, -, -, -, -, -, -, -, -, -, -, -, -, tail⟩ := h
  cases option with
  | none =>
    obtain ⟨length, payload⟩ := tail
    exact ⟨length, by omega⟩
  | some a =>
    obtain ⟨length, payload, -⟩ := tail
    exact ⟨length, by omega⟩

theorem V6Fields.long (h : V6Fields f dest source ipSource ipDest type flags target option) : 78 ≤ f.length := by
  obtain ⟨length, -⟩ := h.length
  split at length <;> omega

/-- The frame passes the structural conditions when its target is not multicast, a solicitation's when it goes to the target's
solicited-node group (R85). -/
theorem V6Fields.isNeighbour (h : V6Fields f dest source ipSource ipDest type flags target option)
    (known : type = 135 ∨ type = 136) (single : target.toNat / 2 ^ 120 ≠ 0xFF)
    (group : type = 135 → ipDest = solicitedGroup target) : V6Neighbour f := by
  have long := h.long
  obtain ⟨-, payload⟩ := h.length
  have first : field f 62 16 / 256 ^ 15 = field f 62 1 := field_add_div (m := 1) (k := 15) (by omega)
  obtain ⟨-, -, v6, -, next, hops, -, dst, ty, code, -, -, -, tgt, -⟩ := h
  refine ⟨v6, next, hops, ty ▸ known, code, by omega, by omega, ?_, fun solicit => .inr ?_⟩
  · rw [← first, tgt]
    exact single
  · rw [dst, tgt, group (ty ▸ solicit), toNat_solicitedGroup]

theorem V6Fields.checksum (h : V6Fields f dest source ipSource ipDest type flags target option) :
    field f 56 2 = frameChecksum f := by
  obtain ⟨-, -, -, -, -, -, -, -, -, -, sum, -⟩ := h
  exact sum

theorem V6Fields.read (h : V6Fields f dest source ipSource ipDest type flags target option) :
    readV6Neighbour f = .v6 (type == 135) ipSource target := by
  obtain ⟨-, -, -, -, -, -, frm, -, ty, -, -, -, -, tgt, -⟩ := h
  rw [readV6Neighbour, ty, v6Source, v6Target, ofNat_field frm, ofNat_field tgt]

/-- The intake takes such a frame past the structural conditions and the checksum test, and reads its fields (R85, R86). -/
theorem V6Fields.readBack (h : V6Fields f dest source ipSource ipDest type flags target option)
    (known : type = 135 ∨ type = 136) (single : target.toNat / 2 ^ 120 ≠ 0xFF)
    (group : type = 135 → ipDest = solicitedGroup target) :
    f.length = (if option.isSome then 86 else 78) ∧ destLink f = dest ∧ sourceLink f = source
      ∧ isV6Neighbour f = true ∧ checksumGood f = true
      ∧ readV6Neighbour f = .v6 (type == 135) ipSource target := by
  obtain ⟨length, -⟩ := h.length
  obtain ⟨dst, frm⟩ := h.links
  have neighbour := h.isNeighbour known single group
  exact ⟨length, dst, frm, isV6Neighbour_iff.mpr neighbour, (checksumGood_iff neighbour).mpr h.checksum, h.read⟩

/-- The link destination of a frame to a multicast IPv6 destination is 33:33 and that destination's last 4 bytes (R205). -/
theorem V6Fields.groupLink (h : V6Fields f dest source ipSource ipDest type flags target option)
    (multicast : dest.toNat = 0x333300000000 + ipDest.toNat % 2 ^ 32) : field f 0 6 = 0x333300000000 + field f 50 4 := by
  have long := h.long
  have last : field f 38 16 % 256 ^ 4 = field f 50 4 := field_add_mod (m := 12) (k := 4) (by omega)
  obtain ⟨link, -, -, -, -, -, -, ip, -⟩ := h
  rw [link, ← last, ip]
  exact multicast

end
end

/-! ### The frames that the part builds (R107 to R110) -/

/-- The solicited-node group of R85: FF02::1:FF before the last 3 bytes of the address. -/
theorem solicitedGroup_eq (a : BitVec 128) :
    solicitedGroup a = 0xFF0200000000000000000001FF#104 ++ a.extractLsb' 0 24 := by
  apply BitVec.eq_of_toNat_eq
  rw [toNat_solicitedGroup, BitVec.toNat_append, BitVec.extractLsb'_toNat, ← Nat.shiftLeft_add_eq_or_of_lt (by omega)]
  simp only [BitVec.toNat_ofNat, Nat.shiftLeft_eq, Nat.shiftRight_zero]

theorem solicitedLink_groupLink (a : BitVec 128) :
    (solicitedLink a).toNat = 0x333300000000 + (solicitedGroup a).toNat % 2 ^ 32 := by
  rw [toNat_solicitedGroup, solicitedLink, low3, BitVec.toNat_ofNat]
  omega

theorem probeFrame_v4_fields (client : LinkAddr) (a : BitVec 32) :
    V4Fields (probeFrame client (.v4 a)) broadcast client 1 client 0 0 a := v4Frame_fields _ _ _ _ _ _ _ (by decide)

theorem probeFrame_v6_fields (client : LinkAddr) (a : BitVec 128) :
    V6Fields (probeFrame client (.v6 a)) (solicitedLink a) client 0 (solicitedGroup a) 135 0 a none := v6Frame_fields ..

theorem announcementFrame_v4_fields (bound : LinkAddr) (a : BitVec 32) :
    V4Fields (announcementFrame bound (.v4 a)) broadcast bound 1 bound a 0 a := v4Frame_fields _ _ _ _ _ _ _ (by decide)

theorem announcementFrame_v6_fields (bound : LinkAddr) (a : BitVec 128) :
    V6Fields (announcementFrame bound (.v6 a)) allNodesLink bound a allNodes 136 0x20 a (some bound) := v6Frame_fields ..

theorem answerV4Frame_fields (answer peerLink : LinkAddr) (peer : BitVec 32) (a : Addr) :
    V4Fields (answerV4Frame answer peerLink peer a) peerLink answer 2 answer a.inV4 peerLink peer :=
  v4Frame_fields _ _ _ _ _ _ _ (by decide)

theorem toNat_advertFlags (solicited : Bool) : (advertFlags solicited).toNat = if solicited then 0x60 else 0x20 := by
  cases solicited <;> rfl

theorem answerV6Frame_fields (answer peerLink : LinkAddr) (peer : Option (BitVec 128)) (solicited : Bool) (a : Addr) :
    V6Fields (answerV6Frame answer peerLink peer solicited a) (if peer = none then allNodesLink else peerLink) answer a.inV6
      (peer.getD allNodes) 136 (if solicited then 0x60 else 0x20) a.inV6 (some answer) := by
  rw [← toNat_advertFlags]
  cases peer with
  | none => exact v6Frame_fields ..
  | some p => exact v6Frame_fields ..

theorem insertTag_eq (segment : BitVec 12) (f : List Byte) :
    insertTag segment f = if segment = 0 then f
      else f.take 12 ++ [0x81#8, 0x00#8] ++ toBytesBE 2 segment.toNat ++ f.drop 12 := rfl

/-! ### The frame of an item (R4, R106, R208) -/

theorem buildFrame_eq {s : State} {item : Item} {b : Binding} (h : s.binding item.entry = some b) :
    s.buildFrame item = insertTag s.settings.segment (s.frameOf item b) := by
  rw [State.buildFrame, h]

section
variable {s : State} {item : Item} {b : Binding} {mode : AnswerMode} {client : LinkAddr}
  (hm : (s.slot b.owner).mode = some mode) (hc : (s.slot b.owner).client = some client)

include hc in
theorem clientAddress_of_client : (s.slot b.owner).clientAddress = client := by rw [Slot.clientAddress, hc]; rfl

include hm hc in
/-- The station address in OWN mode, the client address in MIRRORED mode (R4, R106). -/
theorem answerAddress_of_mode : s.answerAddress b.owner = if mode = .own then s.settings.station else client := by
  rw [State.answerAddress, hm]
  cases mode with
  | own => rfl
  | mirrored => exact clientAddress_of_client hc

include hc in
theorem frameOf_probe (h : item.kind = .duty .probe) : s.frameOf item b = probeFrame client b.addr := by
  cases item with
  | duty d e g => cases h; exact congrArg (probeFrame · b.addr) (clientAddress_of_client hc)
  | answerV4 => cases h
  | answerV6 => cases h

include hm hc in
/-- A HANDBACK binds the address to the client, ANNOUNCE and DEFEND to the answer address (R110). -/
theorem frameOf_announcement {d : Duty} (h : item.kind = .duty d) (hd : d ≠ .probe) :
    s.frameOf item b = announcementFrame (if item.kind = .duty .handback then client
      else if mode = .own then s.settings.station else client) b.addr := by
  rw [← answerAddress_of_mode hm hc]
  cases item with
  | duty d e g =>
    cases h
    cases d with
    | probe => exact absurd rfl hd
    | announce => rfl
    | defend => rfl
    | handback => exact congrArg (announcementFrame · b.addr) (clientAddress_of_client hc)
  | answerV4 => cases h
  | answerV6 => cases h

include hm hc in
theorem frameOf_answerV4_fields {e : Fin 96} {g : Byte} {peerLink : LinkAddr} {peer : BitVec 32}
    (h : item = .answerV4 e g peerLink peer) :
    let answer := if mode = .own then s.settings.station else client
    V4Fields (s.frameOf item b) peerLink answer 2 answer b.addr.inV4 peerLink peer := by
  rw [h, State.frameOf, answerAddress_of_mode hm hc]
  exact answerV4Frame_fields ..

include hm hc in
theorem frameOf_answerV6_fields {e : Fin 96} {g : Byte} {peerLink : LinkAddr} {peer : Option (BitVec 128)} {solicited : Bool}
    (h : item = .answerV6 e g peerLink peer solicited) :
    let answer := if mode = .own then s.settings.station else client
    V6Fields (s.frameOf item b) (if peer = none then allNodesLink else peerLink) answer b.addr.inV6 (peer.getD allNodes) 136
      (if solicited then 0x60 else 0x20) b.addr.inV6 (some answer) := by
  rw [h, State.frameOf, answerAddress_of_mode hm hc]
  exact answerV6Frame_fields ..

end

/-- Settles O53: the fields of each frame are those of its builder, and the intake's tests and readings follow from the fields. -/
theorem sentFramesReadBack : Obligations.SentFramesReadBack := by
  refine ⟨?_, ?_, ?_, ?_, ?_⟩
  · intro s item b mode client hb hm hc answer f bound V4Answer V6Answer
    have v4 : ∀ e g pl p, item = .answerV4 e g pl p → V4Answer pl p b.addr.inV4 :=
      fun _ _ _ _ => frameOf_answerV4_fields hm hc
    have v6 : ∀ e g pl p sol, item = .answerV6 e g pl p sol → V6Answer pl p sol b.addr.inV6 :=
      fun _ _ _ _ _ => frameOf_answerV6_fields hm hc
    have probe : item.kind = .duty .probe → f = probeFrame client b.addr := frameOf_probe hc
    have announcement : ∀ d, item.kind = .duty d → d ≠ .probe → f = announcementFrame bound b.addr :=
      fun d => frameOf_announcement hm hc
    refine ⟨(buildFrame_eq hb).trans (insertTag_eq _ _), fun a ha => ?_, fun a ha => ?_⟩
    · rw [ha] at v4 v6 probe announcement
      exact ⟨fun h => probe h ▸ probeFrame_v4_fields client a,
        fun d h hd => announcement d h hd ▸ announcementFrame_v4_fields bound a,
        v4, fun e g pl p sol h => ⟨_, v6 e g pl p sol h⟩⟩
    · rw [ha] at v4 v6 probe announcement
      have probeFields : item.kind = .duty .probe → V6Fields f (solicitedLink a) client 0 (solicitedGroup a) 135 0 a none :=
        fun h => probe h ▸ probeFrame_v6_fields client a
      have announcementFields : ∀ d, item.kind = .duty d → d ≠ .probe →
          V6Fields f allNodesLink bound a allNodes 136 0x20 a (some bound) :=
        fun d h hd => announcement d h hd ▸ announcementFrame_v6_fields bound a
      refine ⟨fun h => solicitedLink_eq a ▸ solicitedGroup_eq a ▸ probeFields h, announcementFields, v6, ?_,
        fun e g pl p h => ⟨_, v4 e g pl p h⟩⟩
      rintro (⟨d, h⟩ | ⟨e, g, pl, sol, h⟩)
      · by_cases hd : d = .probe
        · exact (probeFields (hd ▸ h)).groupLink (solicitedLink_groupLink a)
        · exact (announcementFields d h hd).groupLink (by decide)
      · exact (v6 e g pl none sol h).groupLink rfl
  · intro dest source sh th sp tp request
    cases request with
    | true => exact (v4Frame_fields dest source 1 sh sp th tp (by decide)).readBack (.inl rfl)
    | false => exact (v4Frame_fields dest source 2 sh sp th tp (by decide)).readBack (.inr rfl)
  · exact fun client a single => (probeFrame_v6_fields client a).readBack (.inl rfl) single fun _ => rfl
  · exact fun answer peerLink peer solicited a single =>
      (answerV6Frame_fields answer peerLink peer solicited (.v6 a)).readBack (.inr rfl) single nofun
  · exact fun bound a single => (announcementFrame_v6_fields bound a).readBack (.inr rfl) single nofun

end Sys2Proof.Machine

/-! ### The command at the front of the queue -/

namespace Sys2Proof.Machine

/-- Settles O1: `step_cons` on the state whose queue is `c :: rest`; setting the queue again to `rest` leaves the other records
those of `s`. -/
theorem stepRunsFrontCommand : Obligations.StepRunsFrontCommand := fun c rest s =>
  step_cons { s with pending := c :: rest } c rest rfl

end Sys2Proof.Machine
